-- ==== Sys2Proof/Word.lean ====
section
/-! DEFINITION. The words of the Ja-Vanilla core: widths only (00_scope.md R5, R6). -/

namespace Sys2Proof

/-- A 32-bit pattern: a register, an ALU result, a memory word, a port value (R5 XLEN, R50). -/
abbrev Word := BitVec 32

/-- A numeric address, 16 bits, naming one 32-bit word; also the program counter (R5 AW, R23, R50). -/
abbrev Addr := BitVec 16

/-- The value of the Address port: bit 16 is the request tag, bits 15 to 0 the numeric address (R5, R54). -/
abbrev PortAddr := BitVec 17

/-- A register index, 0 to 15: every 4-bit field value is one (R21, R86). -/
abbrev RegIdx := Fin 16

/-- The opcode byte, instruction bits 31 to 24 (R80). -/
abbrev Opcode := BitVec 8

end Sys2Proof
end

