-- ==== Sys2Proof/Syntax.lean ====
section
/-! DEFINITION. The instructions: one constructor for each row of spec/opcode_table.json (30_encoding.md R83, R87,
R92). Operands are named as the spec names the fields: `a`, `b` sources, `d` destination (R-type, R81); `r` the
register, `imm` the 16-bit immediate, `m` the marker nibble (I-type, R82). -/

namespace Sys2Proof

/-- The instruction set (R92). The five rows `NOP.*` are the spec's `UNRECOGNISED(op)`, split as the table splits
the 229 opcode values (R88); the four rows of more than one opcode carry the opcode byte (log entry 26). -/
inductive Instr where
  /-- 0x01 ADD (R141) -/
  | add (a b d : RegIdx)
  /-- 0x02 SUB (R142) -/
  | sub (a b d : RegIdx)
  /-- 0x03 MUL (R143) -/
  | mul (a b d : RegIdx)
  /-- 0x04 DIV (R144) -/
  | div (a b d : RegIdx)
  /-- 0x05 MOD (R145) -/
  | mod (a b d : RegIdx)
  /-- 0x06 AND (R151) -/
  | and (a b d : RegIdx)
  /-- 0x07 OR (R152) -/
  | or (a b d : RegIdx)
  /-- 0x08 NOT (R153) -/
  | not (a d : RegIdx)
  /-- 0x09 XOR (R154) -/
  | xor (a b d : RegIdx)
  /-- 0x0A SHL (R155) -/
  | shl (a b d : RegIdx)
  /-- 0x0B SHR (R156) -/
  | shr (a b d : RegIdx)
  /-- 0x0C JMP (R161) -/
  | jmp (a : RegIdx)
  /-- 0x0D CMP (R162) -/
  | cmp (a b : RegIdx)
  /-- 0x0E JGT (R163) -/
  | jgt (a : RegIdx)
  /-- 0x0F JGE (R164) -/
  | jge (a : RegIdx)
  /-- 0x10 JLT (R165) -/
  | jlt (a : RegIdx)
  /-- 0x11 JLE (R166) -/
  | jle (a : RegIdx)
  /-- 0x12 JEQ (R167) -/
  | jeq (a : RegIdx)
  /-- 0x13 JNE (R168) -/
  | jne (a : RegIdx)
  /-- 0x14 LOADIMM (R180) -/
  | loadimm (r : RegIdx) (imm : BitVec 16) (m : BitVec 4)
  /-- 0x15 MOV (R181) -/
  | mov (a d : RegIdx)
  /-- 0x16 LOAD (R191) -/
  | load (r : RegIdx) (imm : Addr)
  /-- 0x17 STORE (R192) -/
  | store (r : RegIdx) (imm : Addr)
  /-- 0x18 LOADR (R193) -/
  | loadr (a d : RegIdx)
  /-- 0x19 STORER (R194) -/
  | storer (a b : RegIdx)
  /-- 0x1A IN (R200) -/
  | inp (d : RegIdx)
  /-- 0x1B OUT (R201) -/
  | out (a : RegIdx)
  /-- NOP.00: the unrecognised opcode 0x00 (R202) -/
  | nop00
  /-- NOP.1C_1F: the unrecognised opcodes 0x1C to 0x1F (R202) -/
  | nop1C (op : Opcode)
  /-- NOP.20_3F: the unrecognised opcodes 0x20 to 0x3F (R202) -/
  | nop20 (op : Opcode)
  /-- NOP.40_7F: the unrecognised opcodes 0x40 to 0x7F (R202) -/
  | nop40 (op : Opcode)
  /-- NOP.80_FF: the unrecognised opcodes 0x80 to 0xFF (R202) -/
  | nop80 (op : Opcode)
  deriving DecidableEq, Repr

end Sys2Proof
end

