-- ==== Sys2Proof/WellFormed.lean ====
section
/-! DEFINITION. Which terms of `Instr` are instructions of the machine. Register indices, immediates and the marker
have exactly the width of their field, so every value of them is legal (30_encoding.md R84, R86); the one thing to
check is that an unrecognised opcode lies in the range of its row (R88, spec/opcode_table.json). -/

namespace Sys2Proof

/-- The opcode byte lies in the range `lo` to `hi` of a row. -/
def Opcode.inRange (lo hi : Nat) (op : Opcode) : Bool :=
  decide (lo ≤ op.toNat) && decide (op.toNat ≤ hi)

/-- Well-formed: a no-op's opcode byte lies in its row's range; everything else is well-formed as it is. -/
def Instr.wf : Instr → Bool
  | .add _ _ _ => true
  | .sub _ _ _ => true
  | .mul _ _ _ => true
  | .div _ _ _ => true
  | .mod _ _ _ => true
  | .and _ _ _ => true
  | .or _ _ _ => true
  | .not _ _ => true
  | .xor _ _ _ => true
  | .shl _ _ _ => true
  | .shr _ _ _ => true
  | .jmp _ => true
  | .cmp _ _ => true
  | .jgt _ => true
  | .jge _ => true
  | .jlt _ => true
  | .jle _ => true
  | .jeq _ => true
  | .jne _ => true
  | .loadimm _ _ _ => true
  | .mov _ _ => true
  | .load _ _ => true
  | .store _ _ => true
  | .loadr _ _ => true
  | .storer _ _ => true
  | .inp _ => true
  | .out _ => true
  | .nop00 => true
  | .nop1C op => Opcode.inRange 0x1C 0x1F op
  | .nop20 op => Opcode.inRange 0x20 0x3F op
  | .nop40 op => Opcode.inRange 0x40 0x7F op
  | .nop80 op => Opcode.inRange 0x80 0xFF op

end Sys2Proof
end

