-- ==== Sys2Proof/Decode.lean ====
section
/-! DEFINITION. The decoder `Decode` (30_encoding.md R92) and, after it, the canonical encoder `Encode` (R93). The
decoder is total: "Decoding never fails and has no side effect", so it rejects no word. Field positions other than the
opcode's and ADD's are the spec's own decisions D1 and D2 (log entries 1, 2); unused bits are ignored, D3 (log entry 3). -/

namespace Sys2Proof

/-- The opcode, `w[31:24]` (R80). -/
def opcodeOf (w : Word) : Opcode := w.extractLsb' 24 8

/-- The field `a` of an R-type word, `w[23:20]` (R81). -/
def fieldA (w : Word) : RegIdx := (w.extractLsb' 20 4).toFin

/-- The field `b` of an R-type word, `w[19:16]` (R81). -/
def fieldB (w : Word) : RegIdx := (w.extractLsb' 16 4).toFin

/-- The field `d` of an R-type word, `w[15:12]` (R81). -/
def fieldD (w : Word) : RegIdx := (w.extractLsb' 12 4).toFin

/-- The field `r` of an I-type word, `w[23:20]` (R82). -/
def fieldR (w : Word) : RegIdx := (w.extractLsb' 20 4).toFin

/-- The field `imm16` of an I-type word, `w[19:4]` (R82). -/
def fieldImm (w : Word) : BitVec 16 := w.extractLsb' 4 16

/-- The marker nibble of an I-type word, `w[3:0]` (R82). -/
def fieldM (w : Word) : BitVec 4 := w.extractLsb' 0 4

/-- The instruction of an unrecognised opcode: the row of spec/opcode_table.json whose range holds it (R88). -/
def decodeUnrecognised (op : Opcode) : Instr :=
  if op.toNat < 0x01 then .nop00
  else if op.toNat < 0x20 then .nop1C op
  else if op.toNat < 0x40 then .nop20 op
  else if op.toNat < 0x80 then .nop40 op
  else .nop80 op

/-- `Decode : bits32 -> Instr` (R92). -/
def decode (w : Word) : Instr :=
  match (opcodeOf w).toNat with
  | 0x01 => .add (fieldA w) (fieldB w) (fieldD w)
  | 0x02 => .sub (fieldA w) (fieldB w) (fieldD w)
  | 0x03 => .mul (fieldA w) (fieldB w) (fieldD w)
  | 0x04 => .div (fieldA w) (fieldB w) (fieldD w)
  | 0x05 => .mod (fieldA w) (fieldB w) (fieldD w)
  | 0x06 => .and (fieldA w) (fieldB w) (fieldD w)
  | 0x07 => .or (fieldA w) (fieldB w) (fieldD w)
  | 0x08 => .not (fieldA w) (fieldD w)
  | 0x09 => .xor (fieldA w) (fieldB w) (fieldD w)
  | 0x0A => .shl (fieldA w) (fieldB w) (fieldD w)
  | 0x0B => .shr (fieldA w) (fieldB w) (fieldD w)
  | 0x0C => .jmp (fieldA w)
  | 0x0D => .cmp (fieldA w) (fieldB w)
  | 0x0E => .jgt (fieldA w)
  | 0x0F => .jge (fieldA w)
  | 0x10 => .jlt (fieldA w)
  | 0x11 => .jle (fieldA w)
  | 0x12 => .jeq (fieldA w)
  | 0x13 => .jne (fieldA w)
  | 0x14 => .loadimm (fieldR w) (fieldImm w) (fieldM w)
  | 0x15 => .mov (fieldA w) (fieldD w)
  | 0x16 => .load (fieldR w) (fieldImm w)
  | 0x17 => .store (fieldR w) (fieldImm w)
  | 0x18 => .loadr (fieldA w) (fieldD w)
  | 0x19 => .storer (fieldA w) (fieldB w)
  | 0x1A => .inp (fieldD w)
  | 0x1B => .out (fieldA w)
  | _ => decodeUnrecognised (opcodeOf w)

/-- The word whose bits are `w`, of which the row of spec/opcode_table.json gives the low `nbits` (bits above are 0).
An instruction is one 32-bit word (R80), and the memory holds words, so no byte order enters (R51). -/
def tableWord (nbits w : Nat) : Word := BitVec.ofNat 32 (w % 2 ^ nbits)

/-- The instruction the decoder reads from a word numbered as spec/opcode_table.json numbers its bits. -/
def decodeTableWord (nbits w : Nat) : Option Instr := some (decode (tableWord nbits w))

/-- The canonical R-type word: used fields at their places, every unused bit 0 (R93, R81). -/
def encodeR (op : Opcode) (a b d : RegIdx) : Word :=
  op ++ BitVec.ofFin (w := 4) a ++ BitVec.ofFin (w := 4) b ++ BitVec.ofFin (w := 4) d ++ 0#12

/-- The canonical I-type word (R93, R82). -/
def encodeI (op : Opcode) (r : RegIdx) (imm : BitVec 16) (m : BitVec 4) : Word :=
  op ++ BitVec.ofFin (w := 4) r ++ imm ++ m

/-- The canonical word of an unrecognised opcode, `op << 24` (R93). -/
def encodeUnrecognised (op : Opcode) : Word := op ++ 0#24

/-- `Encode : Instr -> bits32` (R93). -/
def encode : Instr → Word
  | .add a b d => encodeR 0x01 a b d
  | .sub a b d => encodeR 0x02 a b d
  | .mul a b d => encodeR 0x03 a b d
  | .div a b d => encodeR 0x04 a b d
  | .mod a b d => encodeR 0x05 a b d
  | .and a b d => encodeR 0x06 a b d
  | .or a b d => encodeR 0x07 a b d
  | .not a d => encodeR 0x08 a 0 d
  | .xor a b d => encodeR 0x09 a b d
  | .shl a b d => encodeR 0x0A a b d
  | .shr a b d => encodeR 0x0B a b d
  | .jmp a => encodeR 0x0C a 0 0
  | .cmp a b => encodeR 0x0D a b 0
  | .jgt a => encodeR 0x0E a 0 0
  | .jge a => encodeR 0x0F a 0 0
  | .jlt a => encodeR 0x10 a 0 0
  | .jle a => encodeR 0x11 a 0 0
  | .jeq a => encodeR 0x12 a 0 0
  | .jne a => encodeR 0x13 a 0 0
  | .loadimm r imm m => encodeI 0x14 r imm m
  | .mov a d => encodeR 0x15 a 0 d
  | .load r imm => encodeI 0x16 r imm 0
  | .store r imm => encodeI 0x17 r imm 0
  | .loadr a d => encodeR 0x18 a 0 d
  | .storer a b => encodeR 0x19 a b 0
  | .inp d => encodeR 0x1A 0 0 d
  | .out a => encodeR 0x1B a 0 0
  | .nop00 => encodeUnrecognised 0x00
  | .nop1C op => encodeUnrecognised op
  | .nop20 op => encodeUnrecognised op
  | .nop40 op => encodeUnrecognised op
  | .nop80 op => encodeUnrecognised op

end Sys2Proof
end

