-- ==== Sys2Proof/Machine/Operands.lean ====
section
/-! DEFINITION. Operand forms and the arithmetic helpers of 00_scope.md R6 and R8. -/

namespace Sys2Proof.Machine

/-- `to32(n)`: the 32-bit pattern of the integer `n` modulo 2^32 (R6). -/
def to32 (n : Int) : Word := BitVec.ofInt 32 n

/-- `clamp16(v)`: the register read as unsigned, values above 65535 give 65535 (R8; D7, log entry 7). -/
def clamp16 (v : Word) : Addr :=
  if v.toNat > 65535 then 0xFFFF else v.extractLsb' 0 16

/-- `satinc16(p)`: advance by one word, "saturating, not wrapping, at 65535" (R8, R24). -/
def satinc16 (p : Addr) : Addr :=
  if p = 0xFFFF then 0xFFFF else p + 1

/-- `sdiv(a, b)` for `b ≠ 0`: the signed quotient rounded toward zero (R8; D4, log entry 4). -/
def sdiv (a b : Word) : Word := to32 (a.toInt.tdiv b.toInt)

/-- `srem(a, b)` for `b ≠ 0`: the remainder that goes with `sdiv` (R8; D4, log entry 4). -/
def srem (a b : Word) : Word := to32 (a.toInt - b.toInt * a.toInt.tdiv b.toInt)

/-- `shamt(v)`: the low five bits of the count register (R8; D5, log entry 5). -/
def shamt (v : Word) : Nat := (v.extractLsb' 0 5).toNat

/-- The operand of LOADIMM: the immediate in the high half for the marker 0xF, in the low half for every other
marker; zero-extended, never sign-extended (30_encoding.md R85). -/
def immOperand (imm : BitVec 16) (m : BitVec 4) : Word :=
  if m = 0xF then imm.setWidth 32 <<< 16 else imm.setWidth 32

/-- The numeric address a register holds: its low 16 bits (45_memory_access.md R190; D8, log entry 8). -/
def regAddress (v : Word) : Addr := v.extractLsb' 0 16

/-- `1 ∥ a`: the tagged address of a read request (20_memory.md R54). -/
def tagged (a : Addr) : PortAddr := 1#1 ++ a

/-- `0 ∥ a`: the raw address of a write (20_memory.md R55). -/
def untagged (a : Addr) : PortAddr := 0#1 ++ a

end Sys2Proof.Machine
end

