-- ==== Sys2Proof/Config.lean ====
section
/-! DEFINITION. The open parameters of the spec (92_eei_decisions.md, "Open parameters, in one place") and the free
values. Each is an opaque constant: nothing can be proved of its value, so a claim holds whatever it is. -/

namespace Sys2Proof

/-- `cmpA` at power-on: the first half of the parameter `initFlags`, "any two 32-bit values" (10_state.md R34).
DESIGN CHOICE (log entry 11), safe: the value is not known. -/
opaque Config.initFlagA : Word

/-- `cmpB` at power-on: the second half of the parameter `initFlags` (10_state.md R34).
DESIGN CHOICE (log entry 11), safe: the value is not known. -/
opaque Config.initFlagB : Word

/-- The parameter `M0`: the contents of each memory word before anything is loaded or stored there (20_memory.md
R58, 92_eei_decisions.md). DESIGN CHOICE (log entry 14), safe: the contents are not known. -/
opaque Config.initialMemory : Addr → Word

/-- The `n`-th draw: the value of a sampled input that carries no known value, "any 32-bit value, chosen afresh at
each sampling" (20_memory.md R64). DESIGN CHOICE (log entry 12), safe: the value is not known. -/
opaque Config.draw : Nat → Word

end Sys2Proof
end

