-- ==== Sys2Proof/Machine/State.lean ====
section
/-! DEFINITION. The state of the machine: the core's record of 10_state.md R20, field for field, and beside it the
environment the spec puts around the core (20_memory.md R58, 00_scope.md R9), as plain data. -/

namespace Sys2Proof.Machine

/-- Why the core has stopped: the value of the fault latch (10_state.md R31). `Outcome.fault` is never answered: the
spec gives a faulted core an effect, so a faulting instruction has a NEXT state with the latch set, and every later
evaluation is a next state too (60_exceptions.md R211, log entry 16). -/
inductive Fault where
  /-- DIV or MOD executed with a zero divisor (60_exceptions.md R210). Raised by `execDiv` and `execMod` into the
  latch `State.fault`. Safe: the latch is absorbing, so no claim about an end state passes through it. -/
  | divideByZero
  deriving DecidableEq, Repr

/-- Why the model gives an instruction no meaning. -/
inductive Refusal where
  /-- An instruction the model has no meaning for, by its mnemonic. Safe. No arm of `exec` answers it: every
  instruction of the table has its meaning. -/
  | notModelled (mnemonic : String)
  deriving DecidableEq, Repr

/-- A task of the queue (10_state.md R27): a micro-operation still owed to the bus. -/
inductive Task where
  /-- FETCH: sample Memory, decode, execute (40_cycle.md R116). -/
  | fetch
  /-- WRITE(a, v): drive the untagged address and the value (40_cycle.md R117). -/
  | write (addr : Addr) (value : Word)
  /-- SET_REGISTER(i): sample Memory into register `i` (40_cycle.md R118). -/
  | setRegister (i : RegIdx)
  deriving DecidableEq, Repr

/-- The core's side of the bidirectional Memory line (10_state.md R30). -/
inductive MemLatch where
  /-- Nothing has been asserted yet. -/
  | undriven
  /-- Z: released, so the environment may drive the line. -/
  | released
  /-- Drive(v): the core drives the known value `v`. -/
  | drive (v : Word)
  deriving DecidableEq, Repr

/-- The four inputs sampled by one evaluation (10_state.md R20, R32). Clock and Reset are two-valued (D18, log entry
20); `none` on a data input means that the environment drives no known value there (R32, 20_memory.md R64). -/
structure Inputs where
  clock : Bool
  reset : Bool
  memory : Option Word
  stdin : Option Word
  deriving DecidableEq, Repr

/-- How the environment drives the Memory line at one evaluation. -/
inductive MemoryDrive where
  /-- As the reference environment does: the memory answers a tagged request (20_memory.md R58 a, c). -/
  | answer
  /-- Some value, whatever the memory holds: any other environment (00_scope.md R9). -/
  | word (v : Word)
  /-- No known value (20_memory.md R64). -/
  | floating
  deriving DecidableEq, Repr

/-- What the environment will present at one coming evaluation (00_scope.md R9; log entry 25). -/
structure Stimulus where
  clock : Bool
  reset : Bool
  memory : MemoryDrive
  stdin : Option Word
  deriving DecidableEq, Repr

/-- One listed word of memory: its numeric address and its 32 bits. The word is the only addressable unit
(20_memory.md R50, R51; log entry 15). -/
abbrev Cell := Nat × Word

/-- The listed words of memory, in the canonical form `Memory.wf` of Machine/Ops.lean. -/
abbrev Memory := List Cell

/-- The state. The first ten fields are the core's, exactly R20's record; the last four are the environment's and the
model's own (log entries 13, 25, 27). -/
structure State where
  /-- The general registers `x[0]` to `x[15]` (R21). -/
  x : Vector Word 16
  /-- The program counter (R23). -/
  pc : Addr
  /-- The first compare flag (R25). -/
  cmpA : Word
  /-- The second compare flag (R25). -/
  cmpB : Word
  /-- The task queue `Q`, head first (R27). -/
  queue : List Task
  /-- `clk_prev`, the Clock level seen by the previous evaluation (R29). -/
  clkPrev : Bool
  /-- The Address latch; `none` is Undriven (R30). -/
  address : Option PortAddr
  /-- The MemOut latch (R30). -/
  memOut : MemLatch
  /-- The Stdout latch; `none` is Undriven (R30). -/
  stdout : Option Word
  /-- The fault latch (R31). -/
  fault : Option Fault
  /-- The environment's memory `M` (20_memory.md R58): the words written or loaded so far. -/
  mem : Memory
  /-- The inputs of the evaluation in progress (40_cycle.md R110, the argument `in`). -/
  input : Inputs
  /-- What the environment presents at the coming evaluations; where it is empty, the reference environment. -/
  stimuli : List Stimulus
  /-- How many draws have been made (20_memory.md R64). -/
  draws : Nat
  deriving DecidableEq, Repr

/-- The machine right after reset: the clean-entry state, which is the power-on state (70_reset_and_hazards.md R240,
10_state.md R33, R34). The compare flags hold the opaque `initFlags` (log entry 11); the model's own fields hold what
log entry 27 says. -/
def State.reset : State where
  x := Vector.replicate 16 0
  pc := 0
  cmpA := Config.initFlagA
  cmpB := Config.initFlagB
  queue := []
  clkPrev := false
  address := none
  memOut := .undriven
  stdout := none
  fault := none
  mem := []
  input := { clock := false, reset := false, memory := none, stdin := none }
  stimuli := []
  draws := 0

end Sys2Proof.Machine
end

