-- ==== Sys2Proof/Machine/Ops.lean ====
section
/-! DEFINITION. The named operations over memory, registers, queue, latches and sampled inputs (00_scope.md R7), and
taking the one exception. -/

namespace Sys2Proof.Machine

/-! ## Memory: a canonical list of words (20_memory.md R50, R58) -/

/-- The word listed at a numeric address; an unlisted address has no value of its own here (log entry 14). -/
def Memory.read : Memory → Nat → Option Word
  | [], _ => none
  | (k, v) :: m, a => if a = k then some v else Memory.read m a

/-- List the word `v` at the numeric address `a`, keeping the addresses strictly rising. -/
def Memory.write : Memory → Nat → Word → Memory
  | [], a, v => [(a, v)]
  | (k, u) :: m, a, v =>
    if a < k then (a, v) :: (k, u) :: m
    else if a = k then (a, v) :: m
    else (k, u) :: Memory.write m a v

/-- Every address of the list is above `lo` and below the end of the address space, and they rise strictly. -/
def Memory.risesFrom : Nat → Memory → Bool
  | _, [] => true
  | lo, (k, _) :: m => decide (lo ≤ k) && decide (k < 65536) && Memory.risesFrom (k + 1) m

/-- The canonical form: addresses strictly rising within 0 to 65535 (R50). No entry can equal what an unlisted address
reads as, since that is no value (log entry 14). -/
def Memory.wf (m : Memory) : Bool := Memory.risesFrom 0 m

/-- `M[a]`: the word of the environment's memory at `a` (R58). A word that was never loaded or stored holds the open
parameter `M0` (log entry 14). -/
def State.memWord (s : State) (a : Addr) : Word := (s.mem.read a.toNat).getD (Config.initialMemory a)

/-- `M[a] <- v` (R58 b). -/
def State.storeWord (s : State) (a : Addr) (v : Word) : State := { s with mem := s.mem.write a.toNat v }

/-! ## Registers and program counter -/

/-- `x[i]` (R7; 10_state.md R21: no register is hardwired). -/
def State.reg (s : State) (i : RegIdx) : Word := s.x[i]

/-- `x[i] <- v` (R7). -/
def State.setReg (s : State) (i : RegIdx) (v : Word) : State := { s with x := s.x.set i.val v i.isLt }

/-- `pc <- p` (R7). -/
def State.setPc (s : State) (p : Addr) : State := { s with pc := p }

/-- A jump to the register value `v` if `c` holds: `pc <- clamp16(v)` (43_control.md R160); otherwise `pc` keeps the
address of the next instruction. -/
def State.jumpIf (s : State) (c : Bool) (v : Word) : State := s.setPc (if c then clamp16 v else s.pc)

/-- Step 1 of an evaluation with Reset asserted: all sixteen registers and `pc` to 0, nothing else (40_cycle.md R111). -/
def State.clear (s : State) : State := { s with x := Vector.replicate 16 0, pc := 0 }

/-! ## Task queue, output latches, clock -/

/-- `enqueue(t)`: append at the tail (R7, 10_state.md R27). -/
def State.enqueue (s : State) (t : Task) : State := { s with queue := s.queue ++ [t] }

/-- The queue after `dequeue()` has removed its head (R7). -/
def State.setQueue (s : State) (q : List Task) : State := { s with queue := q }

/-- `Address <- p` (R7). -/
def State.driveAddress (s : State) (p : PortAddr) : State := { s with address := some p }

/-- `MemOut <- m` (R7). -/
def State.setMemOut (s : State) (m : MemLatch) : State := { s with memOut := m }

/-- `Stdout <- v` (R7). -/
def State.driveStdout (s : State) (v : Word) : State := { s with stdout := some v }

/-- `clk_prev <- in.Clock` (40_cycle.md R112). -/
def State.latchClock (s : State) : State := { s with clkPrev := s.input.clock }

/-! ## Sampling an input -/

/-- The value a sampling gives: what the line carries, or a draw where it carries no known value (20_memory.md R64;
D11, log entry 12). -/
def State.sampled (s : State) (line : Option Word) : Word := line.getD (Config.draw s.draws)

/-- The state after that sampling: a draw is used once. -/
def State.countSample (s : State) (line : Option Word) : State :=
  { s with draws := if line.isNone then s.draws + 1 else s.draws }

/-! ## Bus transactions -/

/-- The request of a read: drive the tagged address, release Memory (20_memory.md R54). -/
def State.requestRead (s : State) (a : Addr) : State := (s.driveAddress (tagged a)).setMemOut .released

/-- The WRITE task: drive the raw address and the value (40_cycle.md R117), which the reference environment captures
(20_memory.md R58 b). -/
def State.runWrite (s : State) (a : Addr) (v : Word) : State :=
  ((s.driveAddress (untagged a)).setMemOut (.drive v)).storeWord a v

/-- The SET_REGISTER task: sample Memory into register `i` (40_cycle.md R118). -/
def State.runSetRegister (s : State) (i : RegIdx) : State :=
  (s.countSample s.input.memory).setReg i (s.sampled s.input.memory)

/-- The fetch issue: request the word at `pc`, advance `pc`, enqueue FETCH (40_cycle.md R115). -/
def State.fetchIssue (s : State) : State := ((s.requestRead s.pc).setPc (satinc16 s.pc)).enqueue .fetch

/-- The first half of a load: request the word, enqueue the task that completes it (45_memory_access.md R191, R193). -/
def State.startLoad (s : State) (a : Addr) (i : RegIdx) : State := (s.requestRead a).enqueue (.setRegister i)

/-- The first half of a store: address and value travel in the task (45_memory_access.md R192, R194; D21, log entry
22); no port is asserted. -/
def State.startStore (s : State) (a : Addr) (v : Word) : State := s.enqueue (.write a v)

/-! ## The exception -/

/-- `raise DivideByZero`: set the fault latch, nothing else (60_exceptions.md R211). There is no trap entry (R216), no
saved state (R212) and no return (R217), so nothing stands beside it. -/
def State.raiseDivideByZero (s : State) : State := { s with fault := some .divideByZero }

end Sys2Proof.Machine
end

