-- ==== Sys2Proof/Machine/Arithmetic.lean ====
section
/-! DEFINITION. ADD, SUB, MUL, DIV, MOD (41_arithmetic.md R140 to R145): sources are read before the destination is
written, results are modulo 2^32, no flag is set, and only a zero divisor raises an exception. -/

namespace Sys2Proof.Machine

/-- ADD (R141). -/
def execAdd (a b d : RegIdx) (s : State) : Host.Outcome State Fault Refusal :=
  .next (s.setReg d (s.reg a + s.reg b))

/-- SUB (R142). -/
def execSub (a b d : RegIdx) (s : State) : Host.Outcome State Fault Refusal :=
  .next (s.setReg d (s.reg a - s.reg b))

/-- MUL (R143). -/
def execMul (a b d : RegIdx) (s : State) : Host.Outcome State Fault Refusal :=
  .next (s.setReg d (s.reg a * s.reg b))

/-- DIV (R144): a zero divisor raises DivideByZero and leaves the destination unwritten. -/
def execDiv (a b d : RegIdx) (s : State) : Host.Outcome State Fault Refusal :=
  if s.reg b = 0 then .next s.raiseDivideByZero
  else .next (s.setReg d (sdiv (s.reg a) (s.reg b)))

/-- MOD (R145): a zero divisor raises DivideByZero and leaves the destination unwritten. -/
def execMod (a b d : RegIdx) (s : State) : Host.Outcome State Fault Refusal :=
  if s.reg b = 0 then .next s.raiseDivideByZero
  else .next (s.setReg d (srem (s.reg a) (s.reg b)))

end Sys2Proof.Machine
end

