-- ==== Sys2Proof/Machine/Flags.lean ====
section
/-! DEFINITION. The compare flags: latched by CMP, read by the six conditional jumps (10_state.md R25). They are two
words, not condition codes: each condition is computed from the latched words when the jump executes. -/

namespace Sys2Proof.Machine

/-- CMP's effect: `cmpA <- a`, `cmpB <- b` (43_control.md R162). -/
def State.latchFlags (s : State) (a b : Word) : State := { s with cmpA := a, cmpB := b }

/-- `s(cmpA) > s(cmpB)` (43_control.md R163; signed by D6, log entry 6). -/
def State.flagsGt (s : State) : Bool := decide (s.cmpB.toInt < s.cmpA.toInt)

/-- `s(cmpA) ≥ s(cmpB)` (43_control.md R164; signed by D6, log entry 6). -/
def State.flagsGe (s : State) : Bool := decide (s.cmpB.toInt ≤ s.cmpA.toInt)

/-- `s(cmpA) < s(cmpB)` (43_control.md R165; signed by D6, log entry 6). -/
def State.flagsLt (s : State) : Bool := decide (s.cmpA.toInt < s.cmpB.toInt)

/-- `s(cmpA) ≤ s(cmpB)` (43_control.md R166; signed by D6, log entry 6). -/
def State.flagsLe (s : State) : Bool := decide (s.cmpA.toInt ≤ s.cmpB.toInt)

/-- `cmpA = cmpB`, all 32 bits (43_control.md R167). -/
def State.flagsEq (s : State) : Bool := decide (s.cmpA = s.cmpB)

/-- `cmpA ≠ cmpB`, some bit differs (43_control.md R168). -/
def State.flagsNe (s : State) : Bool := decide (s.cmpA ≠ s.cmpB)

end Sys2Proof.Machine
end

