-- ==== Sys2Proof/Machine/Control.lean ====
section
/-! DEFINITION. JMP, CMP, JGT, JGE, JLT, JLE, JEQ, JNE (43_control.md R160 to R168). A target is a register's value,
clamped to 65535; a jump that is not taken changes nothing. -/

namespace Sys2Proof.Machine

/-- JMP (R161). -/
def execJmp (a : RegIdx) (s : State) : Host.Outcome State Fault Refusal := .next (s.jumpIf true (s.reg a))

/-- CMP (R162): copies two words, computes no condition. -/
def execCmp (a b : RegIdx) (s : State) : Host.Outcome State Fault Refusal :=
  .next (s.latchFlags (s.reg a) (s.reg b))

/-- JGT (R163). -/
def execJgt (a : RegIdx) (s : State) : Host.Outcome State Fault Refusal := .next (s.jumpIf s.flagsGt (s.reg a))

/-- JGE (R164). -/
def execJge (a : RegIdx) (s : State) : Host.Outcome State Fault Refusal := .next (s.jumpIf s.flagsGe (s.reg a))

/-- JLT (R165). -/
def execJlt (a : RegIdx) (s : State) : Host.Outcome State Fault Refusal := .next (s.jumpIf s.flagsLt (s.reg a))

/-- JLE (R166). -/
def execJle (a : RegIdx) (s : State) : Host.Outcome State Fault Refusal := .next (s.jumpIf s.flagsLe (s.reg a))

/-- JEQ (R167). -/
def execJeq (a : RegIdx) (s : State) : Host.Outcome State Fault Refusal := .next (s.jumpIf s.flagsEq (s.reg a))

/-- JNE (R168). -/
def execJne (a : RegIdx) (s : State) : Host.Outcome State Fault Refusal := .next (s.jumpIf s.flagsNe (s.reg a))

end Sys2Proof.Machine
end

