-- ==== Sys2Proof/Machine/IoNop.lean ====
section
/-! DEFINITION. IN, OUT and the unrecognised opcodes (46_io_nop.md R200 to R202). -/

namespace Sys2Proof.Machine

/-- IN (R200): Stdin as sampled by this evaluation; a draw if the port carries no known value (20_memory.md R64). -/
def execIn (d : RegIdx) (s : State) : Host.Outcome State Fault Refusal :=
  .next ((s.countSample s.input.stdin).setReg d (s.sampled s.input.stdin))

/-- OUT (R201): the latch keeps the value until the next OUT. -/
def execOut (a : RegIdx) (s : State) : Host.Outcome State Fault Refusal := .next (s.driveStdout (s.reg a))

/-- Opcode 0x00: "silently ignored (no state change)" (R202). -/
def execNop00 (s : State) : Host.Outcome State Fault Refusal := .next s

/-- Opcodes 0x1C to 0x1F: "silently ignored (no state change)" (R202). -/
def execNop1C (_op : Opcode) (s : State) : Host.Outcome State Fault Refusal := .next s

/-- Opcodes 0x20 to 0x3F: "silently ignored (no state change)" (R202). -/
def execNop20 (_op : Opcode) (s : State) : Host.Outcome State Fault Refusal := .next s

/-- Opcodes 0x40 to 0x7F: "silently ignored (no state change)" (R202). -/
def execNop40 (_op : Opcode) (s : State) : Host.Outcome State Fault Refusal := .next s

/-- Opcodes 0x80 to 0xFF: "silently ignored (no state change)" (R202). -/
def execNop80 (_op : Opcode) (s : State) : Host.Outcome State Fault Refusal := .next s

end Sys2Proof.Machine
end

