-- ==== Sys2Proof/Machine/LogicShift.lean ====
section
/-! DEFINITION. AND, OR, NOT, XOR, SHL, SHR (42_logic_shift.md R150 to R156): bit-pattern semantics, no flag, no
exception. -/

namespace Sys2Proof.Machine

/-- AND (R151). -/
def execAnd (a b d : RegIdx) (s : State) : Host.Outcome State Fault Refusal :=
  .next (s.setReg d (s.reg a &&& s.reg b))

/-- OR (R152). -/
def execOr (a b d : RegIdx) (s : State) : Host.Outcome State Fault Refusal :=
  .next (s.setReg d (s.reg a ||| s.reg b))

/-- NOT (R153): one source, the field `b` is not read. -/
def execNot (a d : RegIdx) (s : State) : Host.Outcome State Fault Refusal :=
  .next (s.setReg d (~~~ s.reg a))

/-- XOR (R154). -/
def execXor (a b d : RegIdx) (s : State) : Host.Outcome State Fault Refusal :=
  .next (s.setReg d (s.reg a ^^^ s.reg b))

/-- SHL (R155): zeros enter at bit 0. -/
def execShl (a b d : RegIdx) (s : State) : Host.Outcome State Fault Refusal :=
  .next (s.setReg d (s.reg a <<< shamt (s.reg b)))

/-- SHR (R156): logical, zeros enter at bit 31. -/
def execShr (a b d : RegIdx) (s : State) : Host.Outcome State Fault Refusal :=
  .next (s.setReg d (s.reg a >>> shamt (s.reg b)))

end Sys2Proof.Machine
end

