-- ==== Sys2Proof/Machine/MemoryAccess.lean ====
section
/-! DEFINITION. LOAD, STORE, LOADR, STORER (45_memory_access.md R190 to R194): what each does on the edge that
executes it. The task it enqueues completes it on the next edge. -/

namespace Sys2Proof.Machine

/-- LOAD (R191): absolute address. -/
def execLoad (r : RegIdx) (imm : Addr) (s : State) : Host.Outcome State Fault Refusal := .next (s.startLoad imm r)

/-- STORE (R192): absolute address, the value is read now. -/
def execStore (r : RegIdx) (imm : Addr) (s : State) : Host.Outcome State Fault Refusal :=
  .next (s.startStore imm (s.reg r))

/-- LOADR (R193): the address is the low 16 bits of register `a`, read now. -/
def execLoadr (a d : RegIdx) (s : State) : Host.Outcome State Fault Refusal :=
  .next (s.startLoad (regAddress (s.reg a)) d)

/-- STORER (R194): the address is the low 16 bits of register `a`, the value register `b`, both read now. -/
def execStorer (a b : RegIdx) (s : State) : Host.Outcome State Fault Refusal :=
  .next (s.startStore (regAddress (s.reg a)) (s.reg b))

end Sys2Proof.Machine
end

