-- ==== Sys2Proof/Machine/Move.lean ====
section
/-! DEFINITION. LOADIMM and MOV (44_move.md R180, R181). -/

namespace Sys2Proof.Machine

/-- LOADIMM (R180): ORs the immediate into the half the marker selects; it never clears a bit. -/
def execLoadimm (r : RegIdx) (imm : BitVec 16) (m : BitVec 4) (s : State) : Host.Outcome State Fault Refusal :=
  .next (s.setReg r (s.reg r ||| immOperand imm m))

/-- MOV (R181): a full overwrite. -/
def execMov (a d : RegIdx) (s : State) : Host.Outcome State Fault Refusal :=
  .next (s.setReg d (s.reg a))

end Sys2Proof.Machine
end

