-- ==== Sys2Proof/Machine/Dispatch.lean ====
section
/-! DEFINITION. `Execute(i)` (40_cycle.md R119): one arm per instruction, each a call of its meaning. -/

namespace Sys2Proof.Machine

def exec (i : Instr) (s : State) : Host.Outcome State Fault Refusal :=
  match i with
  | .add a b d => Sys2Proof.Machine.execAdd a b d s
  | .sub a b d => Sys2Proof.Machine.execSub a b d s
  | .mul a b d => Sys2Proof.Machine.execMul a b d s
  | .div a b d => Sys2Proof.Machine.execDiv a b d s
  | .mod a b d => Sys2Proof.Machine.execMod a b d s
  | .and a b d => Sys2Proof.Machine.execAnd a b d s
  | .or a b d => Sys2Proof.Machine.execOr a b d s
  | .not a d => Sys2Proof.Machine.execNot a d s
  | .xor a b d => Sys2Proof.Machine.execXor a b d s
  | .shl a b d => Sys2Proof.Machine.execShl a b d s
  | .shr a b d => Sys2Proof.Machine.execShr a b d s
  | .jmp a => Sys2Proof.Machine.execJmp a s
  | .cmp a b => Sys2Proof.Machine.execCmp a b s
  | .jgt a => Sys2Proof.Machine.execJgt a s
  | .jge a => Sys2Proof.Machine.execJge a s
  | .jlt a => Sys2Proof.Machine.execJlt a s
  | .jle a => Sys2Proof.Machine.execJle a s
  | .jeq a => Sys2Proof.Machine.execJeq a s
  | .jne a => Sys2Proof.Machine.execJne a s
  | .loadimm r imm m => Sys2Proof.Machine.execLoadimm r imm m s
  | .mov a d => Sys2Proof.Machine.execMov a d s
  | .load r imm => Sys2Proof.Machine.execLoad r imm s
  | .store r imm => Sys2Proof.Machine.execStore r imm s
  | .loadr a d => Sys2Proof.Machine.execLoadr a d s
  | .storer a b => Sys2Proof.Machine.execStorer a b s
  | .inp d => Sys2Proof.Machine.execIn d s
  | .out a => Sys2Proof.Machine.execOut a s
  | .nop00 => Sys2Proof.Machine.execNop00 s
  | .nop1C op => Sys2Proof.Machine.execNop1C op s
  | .nop20 op => Sys2Proof.Machine.execNop20 op s
  | .nop40 op => Sys2Proof.Machine.execNop40 op s
  | .nop80 op => Sys2Proof.Machine.execNop80 op s

end Sys2Proof.Machine
end

