-- ==== Sys2Proof/Machine/Environment.lean ====
section
/-! DEFINITION. The environment: what it presents on the four inputs at each evaluation. The reference environment is
20_memory.md R58; any other is a list of stimuli (00_scope.md R9; log entries 13, 25). -/

namespace Sys2Proof.Machine

/-- What the reference memory puts on the Memory line: `M[a]` when the latches show `Address = 1 ∥ a` and `MemOut = Z`
(R58 a), no known value otherwise (R58 c). -/
def State.memoryAnswer (s : State) : Option Word :=
  match s.address, s.memOut with
  | some p, .released => if p.getLsbD 16 then some (s.memWord (p.extractLsb' 0 16)) else none
  | _, _ => none

/-- The Memory line under a drive. -/
def State.memoryLine (s : State) : MemoryDrive → Option Word
  | .answer => s.memoryAnswer
  | .word v => some v
  | .floating => none

/-- What the reference environment does next: Clock alternates, Reset is low, the memory answers, and Stdin is free
(R58 d): no value is known there, so an IN takes a draw. -/
def State.refStimulus (s : State) : Stimulus where
  clock := !s.input.clock
  reset := false
  memory := .answer
  stdin := none

/-- What the environment does at the coming evaluation. -/
def State.nextStimulus (s : State) : Stimulus :=
  match s.stimuli with
  | [] => s.refStimulus
  | e :: _ => e

/-- The four inputs the coming evaluation samples. They depend on the latches as they stand before it, so nothing
asserted during an evaluation reaches what the same evaluation samples (40_cycle.md R120). -/
def State.nextInputs (s : State) : Inputs where
  clock := s.nextStimulus.clock
  reset := s.nextStimulus.reset
  memory := s.memoryLine s.nextStimulus.memory
  stdin := s.nextStimulus.stdin

/-- The state with the inputs `i` presented: the argument `in` of `Eval` (40_cycle.md R110). -/
def State.present (s : State) (i : Inputs) : State := { s with input := i }

/-- The stimulus of the coming evaluation is used up. -/
def State.dropStimulus (s : State) : State := { s with stimuli := s.stimuli.tail }

/-- The environment's move: present the next inputs. -/
def State.presentNext (s : State) : State := s.dropStimulus.present s.nextInputs

/-- One rising-edge stimulus of the reference environment, with the given Stdin. -/
def Stimulus.rise (stdin : Option Word) : Stimulus := { clock := true, reset := false, memory := .answer, stdin := stdin }

/-- One low-Clock stimulus of the reference environment, with the given Stdin. -/
def Stimulus.fall (stdin : Option Word) : Stimulus := { clock := false, reset := false, memory := .answer, stdin := stdin }

/-- The stimuli of `n` clock cycles of the reference environment, each a rise and a fall (R58 d). -/
def Stimulus.cycles (stdin : Option Word) : Nat → List Stimulus
  | 0 => []
  | n + 1 => Stimulus.rise stdin :: Stimulus.fall stdin :: Stimulus.cycles stdin n

/-- `s` made ready to run the word `w` at the very next step: the word is loaded at `pc`, its fetch has been issued
(R115), Clock is low, and a rising edge comes next (log entry 24). -/
def State.readyToRun (s : State) (w : Word) : State :=
  { (s.storeWord s.pc w).requestRead s.pc with
    pc := satinc16 s.pc
    queue := [.fetch]
    clkPrev := false
    fault := none
    stimuli := Stimulus.rise none :: s.stimuli }

end Sys2Proof.Machine
end

