-- ==== Sys2Proof/Machine/Cycle.lean ====
section
/-! DEFINITION. The evaluation `Eval` (40_cycle.md R110): the level-sensitive clear, the edge detection, and on a
rising edge one fetch issue or one task. Its argument `in` is the field `input`. -/

namespace Sys2Proof.Machine

/-- The FETCH task: sample Memory, decode, execute within the same edge (R116). -/
def State.runFetch (s : State) : Host.Outcome State Fault Refusal :=
  exec (decode (s.sampled s.input.memory)) (s.countSample s.input.memory)

/-- Perform one dequeued task (R116 to R118). -/
def State.runTask (s : State) : Task → Host.Outcome State Fault Refusal
  | .fetch => s.runFetch
  | .write a v => .next (s.runWrite a v)
  | .setRegister i => .next (s.runSetRegister i)

/-- What a rising edge does: a fetch issue if the queue is empty, otherwise exactly its head task (R114). -/
def State.risingEdge (s : State) : Host.Outcome State Fault Refusal :=
  match s.queue with
  | [] => .next s.fetchIssue
  | t :: rest => (s.setQueue rest).runTask t

/-- Step 1: the clear, at every evaluation with Reset asserted (R111). -/
def State.applyReset (s : State) : State := if s.input.reset then s.clear else s

/-- A rising edge: the last-seen Clock level is 0 and Clock is 1 (R112). -/
def State.rising (s : State) : Bool := !s.clkPrev && s.input.clock

/-- `Eval(S, in)` with `in` the presented inputs (R110). A faulted core does nothing (R121). The clear does not end the
evaluation: a rising edge then acts on the cleared state (R111; D14, log entry 17). -/
def State.evaluate (s : State) : Host.Outcome State Fault Refusal :=
  match s.fault with
  | some _ => .next s
  | none => if s.rising then s.applyReset.latchClock.risingEdge else .next s.applyReset.latchClock

/-- `Eval : State × Inputs -> State` with the inputs as a free argument (R9, R110). -/
def eval (s : State) (i : Inputs) : Host.Outcome State Fault Refusal := (s.present i).evaluate

end Sys2Proof.Machine
end

