-- ==== Sys2Proof/Machine/Step.lean ====
section
/-! DEFINITION. The step: one evaluation (40_cycle.md R110), on the inputs the environment presents next. -/

namespace Sys2Proof.Machine

/-- One step of the machine: the environment presents its next inputs and the core evaluates them. -/
def step (s : State) : Host.Outcome State Fault Refusal := s.presentNext.evaluate

/-- `s` with the instruction word loaded and fetched, so that the next step runs it (log entry 24). -/
def State.withFetchWord (s : State) (nbits w : Nat) : State := s.readyToRun (tableWord nbits w)

end Sys2Proof.Machine
end

