-- ==== Sys2Proof/Machine/InstrLevel.lean ====
section
/-! DEFINITION. The instruction-level view of 40_cycle.md R123 and the pseudo-instructions of 30_encoding.md R91. The
normative machine is the evaluation of Machine/Cycle.lean (00_scope.md R9); these are derived readings of it. -/

namespace Sys2Proof.Machine

/-- The rule of an instruction with its memory access done in the same step (R123): a load reads `M[addr]` into its
register, a store writes `M[addr]`; every other instruction is complete on the edge that executes it. -/
def instrEffect (i : Instr) (s : State) : Host.Outcome State Fault Refusal :=
  match i with
  | .load r imm => .next ((s.requestRead imm).setReg r (s.memWord imm))
  | .loadr a d => .next ((s.requestRead (regAddress (s.reg a))).setReg d (s.memWord (regAddress (s.reg a))))
  | .store r imm => .next (s.runWrite imm (s.reg r))
  | .storer a b => .next (s.runWrite (regAddress (s.reg a)) (s.reg b))
  | i => exec i s

/-- The state in which an instruction executes at the instruction level: its word has been read at `pc`, `pc` has
advanced, and Stdin shows what it shows on the executing edge (R123). -/
def State.fetched (s : State) (stdin : Option Word) : State :=
  ((s.requestRead s.pc).setPc (satinc16 s.pc)).present { s.input with stdin := stdin }

/-- `InstrStep(S, M)` (R123): one instruction as one atomic transition. -/
def instrStep (stdin : Option Word) (s : State) : Host.Outcome State Fault Refusal :=
  instrEffect (decode (s.memWord s.pc)) (s.fetched stdin)

/-- Rising edges an instruction takes, its fetch issue included (R122). -/
def edgesOf : Instr → Nat
  | .load _ _ => 3
  | .loadr _ _ => 3
  | .store _ _ => 3
  | .storer _ _ => 3
  | _ => 2

/-- The pseudo-instructions the spec uses in its examples (30_encoding.md R91). -/
inductive Pseudo where
  /-- `NOP`, the word 0x00000000 -/
  | nop
  /-- `CLR rd`, that is `XOR rd, rd, rd` -/
  | clr (d : RegIdx)
  /-- `LI rd, v32`, that is `CLR rd` and the two LOADIMMs of its halves -/
  | li (d : RegIdx) (v : Word)
  deriving DecidableEq, Repr

/-- The expansion of a pseudo-instruction (R91). -/
def Pseudo.expand : Pseudo → List Instr
  | .nop => [.nop00]
  | .clr d => [.xor d d d]
  | .li d v => [.xor d d d, .loadimm d (v.extractLsb' 0 16) 0x0, .loadimm d (v.extractLsb' 16 16) 0xF]

/-- The rules of several instructions, one after the other. -/
def execAll : List Instr → State → Host.Outcome State Fault Refusal
  | [], s => .next s
  | i :: is, s =>
    match exec i s with
    | .next t => execAll is t
    | .fault f => .fault f
    | .refused r => .refused r

end Sys2Proof.Machine
end

