-- ==== Sys2Proof/Safety.lean ====
section
/-! DEFINITION. The terms claims are made in: what an instruction leaves unchanged (frames), the invariant of every
reachable state, what a good run is, and the spec's named situations. Each is about fields of the state and says
nothing of how a meaning computes them. -/

namespace Sys2Proof.Machine

/-! ## Frames: `t` agrees with `s` on a part of the state -/

/-- Every general register reads the same. -/
def State.SameRegs (s t : State) : Prop := ∀ i, t.reg i = s.reg i

/-- Register `d` reads `v`, every other register reads the same. -/
def State.RegBecomes (s t : State) (d : RegIdx) (v : Word) : Prop :=
  t.reg d = v ∧ ∀ i, i ≠ d → t.reg i = s.reg i

/-- The compare flags are the same (10_state.md R25). -/
def State.SameFlags (s t : State) : Prop := t.cmpA = s.cmpA ∧ t.cmpB = s.cmpB

/-- The three output latches are the same (10_state.md R30). -/
def State.SamePorts (s t : State) : Prop :=
  t.address = s.address ∧ t.memOut = s.memOut ∧ t.stdout = s.stdout

/-- Every word of memory reads the same, and the same words are listed. -/
def State.SameMemory (s t : State) : Prop := (∀ a, t.memWord a = s.memWord a) ∧ t.mem = s.mem

/-- The word at `a` reads `v`, every other word reads the same. -/
def State.WordBecomes (s t : State) (a : Addr) (v : Word) : Prop :=
  t.memWord a = v ∧ ∀ b, b ≠ a → t.memWord b = s.memWord b

/-- The last-seen Clock level and the fault latch are the same (10_state.md R29, R31). -/
def State.SameClockAndFault (s t : State) : Prop := t.clkPrev = s.clkPrev ∧ t.fault = s.fault

/-- The model's own fields are the same: presented inputs, coming stimuli, count of draws. -/
def State.SameEnvironment (s t : State) : Prop :=
  t.input = s.input ∧ t.stimuli = s.stimuli ∧ t.draws = s.draws

/-- Everything but the general registers is the same. -/
def State.SameButRegs (s t : State) : Prop :=
  t.pc = s.pc ∧ s.SameFlags t ∧ t.queue = s.queue ∧ s.SamePorts t ∧ s.SameMemory t ∧ s.SameClockAndFault t ∧
    s.SameEnvironment t

/-- Register `d` becomes `v` and nothing else changes: the effect of a register instruction. -/
def State.OnlyReg (s t : State) (d : RegIdx) (v : Word) : Prop := s.RegBecomes t d v ∧ s.SameButRegs t

/-- `pc` becomes `p` and nothing else changes: the effect of a jump. -/
def State.OnlyPc (s t : State) (p : Addr) : Prop :=
  t.pc = p ∧ s.SameRegs t ∧ s.SameFlags t ∧ t.queue = s.queue ∧ s.SamePorts t ∧ s.SameMemory t ∧
    s.SameClockAndFault t ∧ s.SameEnvironment t

/-- The core's ten fields are the same (10_state.md R20); the environment may have moved. -/
def State.SameCore (s t : State) : Prop :=
  t.x = s.x ∧ t.pc = s.pc ∧ s.SameFlags t ∧ t.queue = s.queue ∧ s.SamePorts t ∧ s.SameClockAndFault t

/-! ## The invariant of every reachable state -/

/-- The latches show a read request: a tagged address with Memory released (20_memory.md R54). -/
def State.Requesting (s : State) : Prop := (∃ a, s.address = some (tagged a)) ∧ s.memOut = .released

/-- Whether a task samples Memory when it runs (40_cycle.md R116, R118). -/
def Task.samples : Task → Bool
  | .fetch => true
  | .setRegister _ => true
  | .write _ _ => false

/-- The invariant: at most one task is queued (10_state.md R28); a queued task that will sample Memory has its request
on the latches (20_memory.md R59); the memory is in its canonical form. -/
def State.Inv (s : State) : Prop :=
  s.queue.length ≤ 1 ∧ (∀ t ∈ s.queue, t.samples = true → s.Requesting) ∧ s.mem.wf = true

/-! ## Named situations of the spec -/

/-- A core that has not faulted. A run is good while this holds: a faulted state is never an end state
(60_exceptions.md R211). -/
def State.Healthy (s : State) : Prop := s.fault = none

/-- The clean-entry state (70_reset_and_hazards.md R240). -/
def State.CleanEntry (s : State) : Prop :=
  (∀ i, s.reg i = 0) ∧ s.pc = 0 ∧ s.queue = [] ∧ s.clkPrev = false ∧ s.fault = none

/-- Between two instructions with Clock low: nothing queued, no fault, so that the next rising edge is a fetch issue. -/
def State.Idle (s : State) : Prop := s.queue = [] ∧ s.fault = none ∧ s.clkPrev = false

/-! ## What an evaluation looks at, in the words of the rules -/

/-- The evaluation with inputs `i` is a rising edge (40_cycle.md R112). -/
def State.RisesOn (s : State) (i : Inputs) : Prop := s.clkPrev = false ∧ i.clock = true

/-- Register `r` as an edge's action sees it: 0 if Reset is asserted at that evaluation (40_cycle.md R111). -/
def State.regSeen (s : State) (i : Inputs) (r : RegIdx) : Word := if i.reset then 0 else s.reg r

/-- The word an evaluation samples from the Memory line (20_memory.md R64). -/
def State.wordSeen (s : State) (i : Inputs) : Word := i.memory.getD (Config.draw s.draws)

/-- The register holding the target, for the seven jumps (43_control.md R160). -/
def jumpRegister : Instr → Option RegIdx
  | .jmp a => some a
  | .jgt a => some a
  | .jge a => some a
  | .jlt a => some a
  | .jle a => some a
  | .jeq a => some a
  | .jne a => some a
  | _ => none

/-- The six conditional jumps, the only readers of the compare flags (10_state.md R25). -/
def isConditionalJump : Instr → Bool
  | .jgt _ => true
  | .jge _ => true
  | .jlt _ => true
  | .jle _ => true
  | .jeq _ => true
  | .jne _ => true
  | _ => false

/-- The register an instruction writes on the edge that executes it (10_state.md R22). -/
def destinationOf : Instr → Option RegIdx
  | .add _ _ d => some d
  | .sub _ _ d => some d
  | .mul _ _ d => some d
  | .div _ _ d => some d
  | .mod _ _ d => some d
  | .and _ _ d => some d
  | .or _ _ d => some d
  | .not _ d => some d
  | .xor _ _ d => some d
  | .shl _ _ d => some d
  | .shr _ _ d => some d
  | .loadimm r _ _ => some r
  | .mov _ d => some d
  | .inp d => some d
  | _ => none

/-- The bits of an instruction word that its opcode uses, the opcode byte included (30_encoding.md R83 and the
`ignored_bits` of spec/opcode_table.json). -/
def usedBits (op : Opcode) : Word :=
  match op.toNat with
  | 0x01 | 0x02 | 0x03 | 0x04 | 0x05 | 0x06 | 0x07 | 0x09 | 0x0A | 0x0B => 0xFFFFF000
  | 0x08 | 0x15 | 0x18 => 0xFFF0F000
  | 0x0C | 0x0E | 0x0F | 0x10 | 0x11 | 0x12 | 0x13 | 0x1B => 0xFFF00000
  | 0x0D | 0x19 => 0xFFFF0000
  | 0x14 => 0xFFFFFFFF
  | 0x16 | 0x17 => 0xFFFFFFF0
  | 0x1A => 0xFF00F000
  | _ => 0xFF000000

/-- `k` evaluations give `t`. -/
def State.RunsTo (s : State) (k : Nat) (t : State) : Prop := Sys2Proof.core.run k s = .next t

/-! ## The end of a run -/

/-- The coming evaluation executes a `JMP` at address `h` to itself: it is the rising edge that runs the FETCH task of
the word requested at `h`, that word is a `JMP`, and the register it jumps to holds `h` (70_reset_and_hazards.md R254). -/
def State.ExecutesSelfJump (s : State) (h : Addr) : Prop :=
  s.Healthy ∧ s.RisesOn s.nextInputs ∧ s.queue = [.fetch] ∧ s.address = some (tagged h) ∧ s.memOut = .released ∧
    ∃ r, decode (s.wordSeen s.nextInputs) = .jmp r ∧ s.regSeen s.nextInputs r = h.setWidth 32

/-- The run from `s` has ended after `k` evaluations, at address `h`, in the state `t`: the last of them executes a
self-jump at `h`, and none before it executes a self-jump (70_reset_and_hazards.md R254, D17). That "for the first time"
looks at self-jumps at every address is DEDUCED (log entry 19). -/
def State.RunEnded (s : State) (k : Nat) (h : Addr) (t : State) : Prop :=
  ∃ j u, k = j + 1 ∧ s.RunsTo j u ∧ u.ExecutesSelfJump h ∧ step u = .next t ∧
    ∀ m < j, ∀ v a, s.RunsTo m v → ¬ v.ExecutesSelfJump a

end Sys2Proof.Machine
end

