-- ==== Sys2Proof/Certificates/Slice0/Obligations.lean ====
section
/-! DEFINITION. The statements for the provers. Each docstring names the rule of spec/ it formalises; where a clause
rests on one of the spec's own decisions D<n> or on a choice of the model, it says so and names the log entry. -/

open Sys2Proof Sys2Proof.Machine

/-! ## Encoding -/

/-- Decoding the canonical word of a well-formed instruction gives the instruction back, every operand at every value
(30_encoding.md R93). The field positions are the spec's decisions D1 and D2 (log entries 1, 2). -/
def Obligations.DecodeEncodeRoundTrip : Prop :=
  ∀ i : Instr, i.wf = true → decode (encode i) = i

/-- Every word decodes to a well-formed instruction (30_encoding.md R92), and encoding that instruction gives the
canonical word: each used field as it stood, every unused bit 0 (R93); it has the same opcode and decodes to the same
instruction. Field positions: D1, D2 (log entries 1, 2); which bits are unused: D3 (log entry 3). -/
def Obligations.EncodeOfDecodeIsCanonical : Prop :=
  ∀ w : Word, (decode w).wf = true ∧ encode (decode w) = w &&& usedBits (opcodeOf w) ∧
    opcodeOf (encode (decode w)) = opcodeOf w ∧ decode (encode (decode w)) = decode w

/-- "Two words that differ only in ignored bits decode to the same `Instr`" (30_encoding.md R92, R84). That unused bits
are ignored is the spec's decision D3 (log entry 3), which bits are used its decisions D1, D2 (log entries 1, 2). -/
def Obligations.DecodeIgnoresUnusedBits : Prop :=
  ∀ w v : Word, opcodeOf w = opcodeOf v → w &&& usedBits (opcodeOf w) = v &&& usedBits (opcodeOf w) →
    decode w = decode v

/-- Words written out from the spec's encodings decode to the instructions they stand for (95_test_vectors.md 2.7;
field positions D1, D2, log entries 1, 2). -/
def Obligations.WordsOfTheSpecDecode : Prop :=
  decode 0x01123000 = .add 1 2 3 ∧ decode 0x08103000 = .not 1 3 ∧ decode 0x0D120000 = .cmp 1 2 ∧
    decode 0x141ABCDF = .loadimm 1 0xABCD 0xF ∧ decode 0x16FFFFF0 = .load 15 0xFFFF ∧
    decode 0x17101000 = .store 1 0x0100 ∧ decode 0x1B300000 = .out 3 ∧ decode 0x1C000000 = .nop1C 0x1C ∧
    decode 0x00ABCDEF = .nop00

/-- Unrecognised opcodes (46_io_nop.md R202): every word whose opcode is 0x00 or 0x1C to 0xFF executes as nothing at
all, and from an empty queue it takes two rising edges, after which only `pc` (advanced, saturating), the two
memory-side latches (the fetch's request) and the last-seen Clock level have moved. -/
def Obligations.UnrecognisedOpcodesAreNoOps : Prop :=
  (∀ s : State, exec .nop00 s = .next s ∧ ∀ op : Opcode, exec (.nop1C op) s = .next s ∧
    exec (.nop20 op) s = .next s ∧ exec (.nop40 op) s = .next s ∧ exec (.nop80 op) s = .next s) ∧
  ∀ (w : Word), ((opcodeOf w).toNat = 0 ∨ 0x1C ≤ (opcodeOf w).toNat) →
    (∀ s : State, exec (decode w) s = .next s) ∧
    ∀ (s : State) (i j k : Inputs), s.Idle →
      i.clock = true → i.reset = false → j.clock = false → j.reset = false →
      k.clock = true → k.reset = false → k.memory = some w →
      ∃ t u v, eval s i = .next t ∧ eval t j = .next u ∧ eval u k = .next v ∧
        s.SameRegs v ∧ s.SameFlags v ∧ v.pc.toNat = min (s.pc.toNat + 1) 65535 ∧ v.queue = [] ∧
        v.address = some (tagged s.pc) ∧ v.memOut = .released ∧ v.stdout = s.stdout ∧ s.SameMemory v ∧
        v.fault = none ∧ v.draws = s.draws

/-- Every instruction answers a next state within the evaluation that executes it and enqueues at most one task, never
a FETCH (40_cycle.md R119), and every step answers a next state. No word is illegal (30_encoding.md R88). That this
holds for DIV and MOD with a zero divisor and for a core that has faulted rests on the spec's decision D13 as the model
takes it (log entry 16): the core stops for good, which is a next state with the fault latch set and, from then on,
steps that change nothing (60_exceptions.md R211). -/
def Obligations.EveryInstructionCompletesWithAtMostOneTask : Prop :=
  (∀ (i : Instr) (s : State), ∃ t added, exec i s = .next t ∧ t.queue = s.queue ++ added ∧
    added.length ≤ 1 ∧ .fetch ∉ added) ∧
  ∀ s : State, ∃ t, step s = .next t

/-! ## The evaluation -/

/-- An evaluation that is not a rising edge (40_cycle.md R113): the clear if Reset is asserted, the clock latch, and
nothing else. -/
def Obligations.EvaluationWithoutEdgeOnlyClearsAndLatches : Prop :=
  ∀ (s : State) (i : Inputs), s.Healthy → ¬ s.RisesOn i →
    ∃ t, eval s i = .next t ∧
      (i.reset = true → (∀ r, t.reg r = 0) ∧ t.pc = 0) ∧
      (i.reset = false → s.SameRegs t ∧ t.pc = s.pc) ∧
      t.clkPrev = i.clock ∧ s.SameFlags t ∧ t.queue = s.queue ∧ s.SamePorts t ∧ s.SameMemory t ∧
      t.fault = none ∧ t.draws = s.draws ∧ t.stimuli = s.stimuli

/-- The rising edge (40_cycle.md R112): from an empty queue a fetch is issued exactly when the last level was 0 and
Clock is 1; every evaluation, rising or not, latches the level; and a second evaluation in a row with Clock high
is no edge. -/
def Obligations.EdgeIsLowThenHighAndEveryEvaluationLatches : Prop :=
  (∀ (s : State) (i : Inputs), s.Healthy → s.queue = [] → i.reset = false →
    ∃ t, eval s i = .next t ∧ (t.queue = [.fetch] ↔ s.RisesOn i)) ∧
  (∀ (s t : State) (i : Inputs), s.Healthy → eval s i = .next t → t.clkPrev = i.clock) ∧
  ∀ (s t : State) (i j : Inputs), s.Healthy → i.clock = true → eval s i = .next t →
    j.clock = true → j.reset = false → ∃ u, eval t j = .next u ∧ t.SameCore u ∧ t.SameMemory u ∧ u.draws = t.draws

/-- The fetch issue (40_cycle.md R115): Address shows `0x10000 | pc`, Memory is released, `pc` advances by one and
saturates at 65535, and FETCH is enqueued; nothing else changes, whatever the data inputs show. -/
def Obligations.FetchIssueRequestsWordAtPc : Prop :=
  ∀ (s : State) (i : Inputs), s.Healthy → s.RisesOn i → i.reset = false → s.queue = [] →
    ∃ t p, eval s i = .next t ∧ t.address = some p ∧ p.toNat = 0x10000 + s.pc.toNat ∧ t.memOut = .released ∧
      t.pc.toNat = min (s.pc.toNat + 1) 65535 ∧ t.queue = [.fetch] ∧ s.SameRegs t ∧ s.SameFlags t ∧
      t.stdout = s.stdout ∧ s.SameMemory t ∧ t.clkPrev = true ∧ t.fault = none ∧ t.draws = s.draws

/-- A rising edge does exactly one of two things (40_cycle.md R114): with an empty queue a fetch is issued; otherwise
exactly the head task is taken off and performed, and no fetch is issued. Performed means: FETCH executes the
instruction that the sampled word decodes to, on the state with only FETCH taken off and the level latched (R116);
WRITE drives its address and value (R117); SET_REGISTER puts the sampled word into its register (R118). The sampled
word is the one on Memory; where Memory carries no known value it is some word. Reset is low here;
ResetClearsThenTheEvaluationGoesOn says what an asserted Reset adds. That
an executed DIV or MOD with a zero divisor answers a next state is the spec's decision D13 (log entry 16). -/
def Obligations.RisingEdgeIssuesOrRunsOneTask : Prop :=
  ∀ (s : State) (i : Inputs), s.Healthy → s.RisesOn i → i.reset = false →
    (s.queue = [] → ∃ t, eval s i = .next t ∧ t.queue = [.fetch] ∧ t.memOut = .released ∧
      t.address = some (tagged s.pc)) ∧
    ∀ k rest, s.queue = k :: rest →
      ∃ t added, eval s i = .next t ∧ t.queue = rest ++ added ∧ added.length ≤ 1 ∧ .fetch ∉ added ∧
        (k ≠ .fetch → added = []) ∧
        (k = .fetch → ∃ w z, (∀ v, i.memory = some v → w = v) ∧ exec (decode w) z = .next t ∧ z.queue = rest ∧
          s.SameRegs z ∧ z.pc = s.pc ∧ s.SameFlags z ∧ s.SamePorts z ∧ s.SameMemory z ∧ z.clkPrev = true ∧
          z.fault = none ∧ z.input = i) ∧
        (∀ a v, k = .write a v → t.address = some (untagged a) ∧ t.memOut = .drive v ∧ t.stdout = s.stdout ∧
          s.SameRegs t ∧ t.pc = s.pc ∧ s.SameFlags t ∧ t.clkPrev = true ∧ t.fault = none) ∧
        (∀ r, k = .setRegister r → ∃ w, (∀ v, i.memory = some v → w = v) ∧ s.RegBecomes t r w ∧ t.pc = s.pc ∧
          s.SameFlags t ∧ s.SamePorts t ∧ s.SameMemory t ∧ t.clkPrev = true ∧ t.fault = none)

/-- A step runs the decoded instruction (40_cycle.md R116): on a rising edge with FETCH at the head of the queue, the
step is `exec` of the instruction that the sampled word decodes to, on the state with the inputs presented, the
clear done if Reset is asserted, the clock level latched and FETCH taken off. A word that the line does not carry is
a draw (D11, log entry 12); that an asserted Reset does not suppress the execution is the spec's decision D14 (log
entry 17). -/
def Obligations.StepRunsDecodedInstruction : Prop :=
  ∀ (s : State) (rest : List Task), s.Healthy → s.RisesOn s.nextInputs → s.queue = .fetch :: rest →
    (∀ w, s.nextInputs.memory = some w → (decode w).wf = true ∧
      step s = exec (decode w) (s.presentNext.applyReset.latchClock.setQueue rest)) ∧
    (s.nextInputs.memory = none →
      step s = exec (decode (Config.draw s.draws))
        ((s.presentNext.applyReset.latchClock.setQueue rest).countSample none))

/-- The model's loading convention (log entry 24): the very next step of `s.withFetchWord n w` is the execution of the
instruction that `decodeTableWord n w` gives, on a state with the registers, flags, Stdout and draws of `s` and an empty
queue. -/
def Obligations.StepAfterWithFetchWordRunsIt : Prop :=
  ∀ (s : State) (n w : Nat), ∃ i t, decodeTableWord n w = some i ∧ step (s.withFetchWord n w) = exec i t ∧
    s.SameRegs t ∧ s.SameFlags t ∧ t.pc = satinc16 s.pc ∧ t.queue = [] ∧ t.stdout = s.stdout ∧ t.fault = none ∧
    s.WordBecomes t s.pc (tableWord n w) ∧ t.draws = s.draws

/-- The WRITE task (40_cycle.md R117): Address shows the untagged address, Memory is driven with the value; it reads no
input and no register and enqueues nothing. What the environment does with the value is
OnlyTheWriteTaskChangesMemory. -/
def Obligations.WriteTaskDrivesAddressAndValue : Prop :=
  ∀ (s : State) (i : Inputs) (a : Addr) (v : Word) (rest : List Task), s.Healthy → s.RisesOn i → i.reset = false →
    s.queue = .write a v :: rest →
    ∃ t p, eval s i = .next t ∧ t.address = some p ∧ p.toNat = a.toNat ∧ t.memOut = .drive v ∧ t.queue = rest ∧
      s.SameRegs t ∧ t.pc = s.pc ∧ s.SameFlags t ∧ t.stdout = s.stdout ∧ t.clkPrev = true ∧ t.fault = none ∧
      t.draws = s.draws

/-- The SET_REGISTER task (40_cycle.md R118): the word on Memory goes into the register, no port is asserted, nothing is
enqueued; and LOAD enqueues exactly one such task and asserts a tagged address, after which, with Clock gone low, the
following rising edge with Memory driven to `v` sets the register to `v` and leaves the queue empty. -/
def Obligations.SetRegisterTaskCompletesLoad : Prop :=
  (∀ (s : State) (i : Inputs) (r : RegIdx) (v : Word) (rest : List Task), s.Healthy → s.RisesOn i →
    i.reset = false → i.memory = some v → s.queue = .setRegister r :: rest →
    ∃ t, eval s i = .next t ∧ s.RegBecomes t r v ∧ t.pc = s.pc ∧ t.queue = rest ∧ s.SameFlags t ∧ s.SamePorts t ∧
      s.SameMemory t ∧ t.clkPrev = true ∧ t.fault = none ∧ t.draws = s.draws) ∧
  ∀ (s : State) (r : RegIdx) (imm : Addr), s.Healthy → s.queue = [] →
    ∃ t p, exec (.load r imm) s = .next t ∧ t.queue = [.setRegister r] ∧ t.address = some p ∧
      p.toNat = 0x10000 + imm.toNat ∧
      ∀ (low i : Inputs) (v : Word), low.clock = false → low.reset = false → i.clock = true → i.reset = false →
        i.memory = some v → ∃ u x, eval t low = .next u ∧ u.queue = [.setRegister r] ∧ s.SameRegs u ∧
          eval u i = .next x ∧ s.RegBecomes x r v ∧ x.queue = []

/-- A load whose data line carries no known value completes with a draw, and uses it up (20_memory.md R64). That the
value is a draw is the spec's decision D11 (log entry 12). -/
def Obligations.UnknownLoadDataIsADraw : Prop :=
  ∀ (s : State) (i : Inputs) (r : RegIdx) (rest : List Task), s.Healthy → s.RisesOn i → i.reset = false →
    i.memory = none → s.queue = .setRegister r :: rest →
    ∃ t, eval s i = .next t ∧ s.RegBecomes t r (Config.draw s.draws) ∧ t.draws = s.draws + 1 ∧ t.pc = s.pc ∧
      t.queue = rest ∧ s.SameFlags t ∧ s.SamePorts t ∧ s.SameMemory t ∧ t.fault = none

/-- Reset is a level: it clears at every evaluation, edge or not, and the rest of the evaluation then acts on the
cleared state (40_cycle.md R111). That it does not suppress the edge's action is the spec's decision D14 (log entry 17). -/
def Obligations.ResetClearsThenTheEvaluationGoesOn : Prop :=
  ∀ (s : State) (i : Inputs), s.Healthy → i.reset = true →
    (∀ r, s.clear.reg r = 0) ∧ s.clear.pc = 0 ∧ s.SameFlags s.clear ∧ s.clear.queue = s.queue ∧
    s.SamePorts s.clear ∧ s.SameMemory s.clear ∧ s.SameClockAndFault s.clear ∧
    ∃ t u, eval s i = .next t ∧ eval s.clear { i with reset := false } = .next u ∧ u.SameCore t ∧
      u.SameMemory t ∧ t.draws = u.draws

/-- Reset does not empty the queue: a pending task runs on the next edge, on the cleared state
(70_reset_and_hazards.md R243). One low-Clock evaluation with Reset asserted, then one rising edge with Reset low. That
the memory holds the value of a pending WRITE after that edge is the capture by the reference environment, the spec's
decision D12; that it is captured in the same evaluation is the model's choice within it (log entry 13). -/
def Obligations.PendingTaskSurvivesReset : Prop :=
  ∀ (s : State) (i j : Inputs), s.Healthy → i.clock = false → i.reset = true → j.clock = true → j.reset = false →
    ∃ t, eval s i = .next t ∧ t.queue = s.queue ∧ (∀ r, t.reg r = 0) ∧ t.pc = 0 ∧ s.SameFlags t ∧ s.SamePorts t ∧
      (∀ r v, s.queue = [.setRegister r] → j.memory = some v →
        ∃ u, eval t j = .next u ∧ u.reg r = v ∧ (∀ q, q ≠ r → u.reg q = 0) ∧ u.queue = [] ∧ u.pc = 0) ∧
      (∀ a v, s.queue = [.write a v] →
        ∃ u, eval t j = .next u ∧ u.address = some (untagged a) ∧ u.memOut = .drive v ∧ s.WordBecomes u a v ∧
          (∀ q, u.reg q = 0) ∧ u.queue = [] ∧ u.pc = 0) ∧
      (∀ w, s.queue = [.fetch] → j.memory = some w →
        ∃ z, eval t j = exec (decode w) z ∧ (∀ q, z.reg q = 0) ∧ z.pc = 0 ∧ z.queue = [] ∧ s.SameFlags z ∧
          s.SamePorts z)

/-- Reset held across a rising edge does not stop the core (70_reset_and_hazards.md R244): the word at hand executes on
zeroed registers, so STORE and STORER owe a write of 0, OUT drives 0, CMP latches zeros, and DIV and MOD fault. Rests on
the spec's decision D14 (log entry 17); the fault latch is its decision D13 (log entry 16). -/
def Obligations.ResetHeldAcrossEdgeExecutesOnZeros : Prop :=
  ∀ (s : State) (i : Inputs) (w : Word), s.Healthy → s.RisesOn i → i.reset = true → i.memory = some w →
    s.queue = [.fetch] →
    ∃ t, eval s i = .next t ∧
      (∀ r imm, decode w = .store r imm → t.queue = [.write imm 0]) ∧
      (∀ a b, decode w = .storer a b → t.queue = [.write 0 0]) ∧
      (∀ a, decode w = .out a → t.stdout = some 0) ∧
      (∀ a b, decode w = .cmp a b → t.cmpA = 0 ∧ t.cmpB = 0) ∧
      (∀ r imm, decode w = .load r imm → t.queue = [.setRegister r] ∧ t.address = some (tagged imm)) ∧
      (∀ a b d, decode w = .div a b d ∨ decode w = .mod a b d → t.fault = some .divideByZero)

/-! ## The exception -/

/-- The fault is absorbing: an evaluation of a faulted core changes nothing, Reset included (40_cycle.md R121). This is
the spec's decision D13 (log entry 16). -/
def Obligations.FaultIsAbsorbing : Prop :=
  ∀ (s : State) (i : Inputs), ¬ s.Healthy →
    ∃ t, eval s i = .next t ∧ s.SameCore t ∧ s.SameMemory t ∧ t.draws = s.draws

/-- The only exception is DivideByZero, and only a DIV or MOD executing with a zero divisor raises it
(60_exceptions.md R210): on the edge that runs its FETCH task, whatever the dividend, and no other instruction and no
task raises it. With Reset asserted on that edge every divisor reads 0, so that a DIV or MOD always faults there (R215);
that the edge acts at all is then the spec's decision D14 (log entry 17). The latch is its decision D13 (log entry 16),
the name its decision D20 (log entry 29), the word of a line that carries none its decision D11 (log entry 12). -/
def Obligations.OnlyDivAndModByZeroFault : Prop :=
  ∀ (s : State) (i : Inputs), s.Healthy →
    ∃ t, eval s i = .next t ∧ (t.fault = none ∨ t.fault = some .divideByZero) ∧
      (t.fault = some .divideByZero ↔
        s.RisesOn i ∧ (∃ rest, s.queue = .fetch :: rest) ∧
          ∃ a b d, (decode (s.wordSeen i) = .div a b d ∨ decode (s.wordSeen i) = .mod a b d) ∧ s.regSeen i b = 0)

/-- DIV and MOD with a zero divisor: the fault latch is set, the destination is not written, and nothing else changes
(60_exceptions.md R211, 41_arithmetic.md R144, R145). The latch is the spec's decision D13 (log entry 16). -/
def Obligations.DivAndModByZeroSetOnlyTheFaultLatch : Prop :=
  ∀ (s : State) (a b d : RegIdx), s.reg b = 0 →
    ∃ t, exec (.div a b d) s = .next t ∧ exec (.mod a b d) s = .next t ∧ t.fault = some .divideByZero ∧
      s.SameRegs t ∧ t.pc = s.pc ∧ s.SameFlags t ∧ t.queue = s.queue ∧ t.clkPrev = s.clkPrev ∧ s.SamePorts t ∧
      s.SameMemory t ∧ s.SameEnvironment t

/-! ## Reset and the invariant -/

/-- The state after reset is the clean-entry state, with nothing asserted on any port (70_reset_and_hazards.md R240,
10_state.md R33, R34). The power-on values are the spec's decision D10 (log entry 10); that `State.reset` is the power-on
state is log entry 24. -/
def Obligations.ResetStateIsCleanEntry : Prop :=
  State.reset.CleanEntry ∧ State.reset.address = none ∧ State.reset.memOut = .undriven ∧ State.reset.stdout = none

/-- The invariant holds at reset: nothing is queued, and the memory is canonical (10_state.md R34; the empty list of
memory words is the model's choice, log entry 14). -/
def Obligations.InvariantHoldsAtReset : Prop := State.reset.Inv

/-- Every step keeps the invariant: at most one task is queued (10_state.md R28), a queued task that will sample Memory
has its request on the latches (20_memory.md R59), and the memory stays canonical (log entry 14). -/
def Obligations.EveryStepKeepsTheInvariant : Prop :=
  ∀ s t : State, s.Inv → step s = .next t → t.Inv

/-- In the reference environment a task that samples Memory always finds the word it requested there: the core never
samples a line that carries no known value (20_memory.md R59, R58). The reference environment is the spec's decision D12
(log entry 13). -/
def Obligations.SampledReadsAreAnsweredByMemory : Prop :=
  ∀ s : State, s.Inv → s.nextStimulus.memory = .answer → ∀ k ∈ s.queue, k.samples = true →
    ∃ a, s.address = some (tagged a) ∧ s.nextInputs.memory = some (s.memWord a)

/-! ## Arithmetic -/

/-- ADD (41_arithmetic.md R141): its encoding, its result modulo 2^32, no flag, no exception, and nothing else. -/
def Obligations.AddWrapsModulo32Bits : Prop :=
  ∀ (a b d : RegIdx),
    (encode (.add a b d)).toNat = 0x01 * 2 ^ 24 + a.val * 2 ^ 20 + b.val * 2 ^ 16 + d.val * 2 ^ 12 ∧
    decode (encode (.add a b d)) = .add a b d ∧
    ∀ s : State, ∃ t v, exec (.add a b d) s = .next t ∧ s.OnlyReg t d v ∧
      v.toNat = ((s.reg a).toNat + (s.reg b).toNat) % 2 ^ 32

/-- The arithmetic family (41_arithmetic.md R140): ADD, SUB, MUL give the result modulo 2^32, the same for the signed
and the unsigned reading of the operands; DIV and MOD with a non-zero divisor complete without an exception and, where
the signed division is exact, give the signed quotient and 0; each writes only its destination, the sources being read
first. `0x80000000 / 0xFFFFFFFF` is one of the exact divisions: its quotient 2^31 wraps to `0x80000000`, the remainder
is 0 and nothing faults, which is the spec's decision D4 (log entry 4). -/
def Obligations.ArithmeticFamilyWritesOnlyItsDestination : Prop :=
  ∀ (s : State) (a b d : RegIdx),
    (∃ t v, exec (.add a b d) s = .next t ∧ s.OnlyReg t d v ∧
      v = to32 ((s.reg a).toNat + (s.reg b).toNat) ∧ v = to32 ((s.reg a).toInt + (s.reg b).toInt)) ∧
    (∃ t v, exec (.sub a b d) s = .next t ∧ s.OnlyReg t d v ∧
      v = to32 ((s.reg a).toNat - (s.reg b).toNat) ∧ v = to32 ((s.reg a).toInt - (s.reg b).toInt)) ∧
    (∃ t v, exec (.mul a b d) s = .next t ∧ s.OnlyReg t d v ∧
      v = to32 ((s.reg a).toNat * (s.reg b).toNat) ∧ v = to32 ((s.reg a).toInt * (s.reg b).toInt)) ∧
    (s.reg b ≠ 0 → ∃ t u v w, exec (.div a b d) s = .next t ∧ exec (.mod a b d) s = .next u ∧
      s.OnlyReg t d v ∧ s.OnlyReg u d w ∧
      ∀ q : Int, (s.reg a).toInt = (s.reg b).toInt * q → v = to32 q ∧ w = 0)

/-- DIV and MOD with a non-zero divisor (41_arithmetic.md R144, R145): the quotient is rounded toward zero and the
remainder goes with it (zero or of the dividend's sign, smaller than the divisor); `0x80000000 / 0xFFFFFFFF` is
`0x80000000` with remainder 0. The rounding and that case are the spec's decision D4 (log entry 4). -/
def Obligations.DivTruncatesAndModHasDividendSign : Prop :=
  ∀ (s : State) (a b d : RegIdx), s.reg b ≠ 0 →
    ∃ t u q r, exec (.div a b d) s = .next t ∧ exec (.mod a b d) s = .next u ∧ s.OnlyReg t d q ∧ s.OnlyReg u d r ∧
      (s.reg a = 0x80000000 ∧ s.reg b = 0xFFFFFFFF → q = 0x80000000 ∧ r = 0) ∧
      (¬ (s.reg a = 0x80000000 ∧ s.reg b = 0xFFFFFFFF) →
        (s.reg a).toInt = (s.reg b).toInt * q.toInt + r.toInt ∧ r.toInt.natAbs < (s.reg b).toInt.natAbs ∧
        (0 ≤ (s.reg a).toInt → 0 ≤ r.toInt) ∧ ((s.reg a).toInt ≤ 0 → r.toInt ≤ 0))

/-! ## Logic and shifts -/

/-- The logic and shift family (42_logic_shift.md R150): AND, OR, NOT, XOR bit by bit, the shifts by a count below 32
bit by bit with zeros entering; each writes only its destination, sets no flag and raises no exception. -/
def Obligations.LogicFamilyWorksBitByBit : Prop :=
  ∀ (s : State) (a b d : RegIdx),
    (∃ t v, exec (.and a b d) s = .next t ∧ s.OnlyReg t d v ∧
      ∀ k < 32, v.getLsbD k = ((s.reg a).getLsbD k && (s.reg b).getLsbD k)) ∧
    (∃ t v, exec (.or a b d) s = .next t ∧ s.OnlyReg t d v ∧
      ∀ k < 32, v.getLsbD k = ((s.reg a).getLsbD k || (s.reg b).getLsbD k)) ∧
    (∃ t v, exec (.not a d) s = .next t ∧ s.OnlyReg t d v ∧
      ∀ k < 32, v.getLsbD k = !(s.reg a).getLsbD k) ∧
    (∃ t v, exec (.xor a b d) s = .next t ∧ s.OnlyReg t d v ∧
      ∀ k < 32, v.getLsbD k = Bool.xor ((s.reg a).getLsbD k) ((s.reg b).getLsbD k)) ∧
    (∃ t v, exec (.shl a b d) s = .next t ∧ s.OnlyReg t d v ∧
      ((s.reg b).toNat < 32 → ∀ k < 32, v.getLsbD k =
        (decide ((s.reg b).toNat ≤ k) && (s.reg a).getLsbD (k - (s.reg b).toNat)))) ∧
    (∃ t v, exec (.shr a b d) s = .next t ∧ s.OnlyReg t d v ∧
      ((s.reg b).toNat < 32 → ∀ k < 32, v.getLsbD k = (s.reg a).getLsbD (k + (s.reg b).toNat)))

/-- SHL and SHR for every count (42_logic_shift.md R155, R156): multiplication and division by 2^n modulo 2^32, n the
low five bits of the count register. That higher count bits are ignored is the spec's decision D5 (log entry 5). -/
def Obligations.ShiftsUseLowFiveBitsOfCount : Prop :=
  ∀ (s : State) (a b d : RegIdx),
    (∃ t v, exec (.shl a b d) s = .next t ∧ s.OnlyReg t d v ∧
      v.toNat = (s.reg a).toNat * 2 ^ ((s.reg b).toNat % 32) % 2 ^ 32) ∧
    (∃ t v, exec (.shr a b d) s = .next t ∧ s.OnlyReg t d v ∧
      v.toNat = (s.reg a).toNat / 2 ^ ((s.reg b).toNat % 32))

/-! ## Control transfer and the compare flags -/

/-- CMP latches its two operand values whole and changes nothing else (43_control.md R162). -/
def Obligations.CmpLatchesBothRegisters : Prop :=
  ∀ (s : State) (a b : RegIdx), ∃ t, exec (.cmp a b) s = .next t ∧ t.cmpA = s.reg a ∧ t.cmpB = s.reg b ∧
    s.SameRegs t ∧ t.pc = s.pc ∧ t.queue = s.queue ∧ s.SamePorts t ∧ s.SameMemory t ∧ s.SameClockAndFault t ∧
    s.SameEnvironment t

/-- The compare flags are written only by CMP, and survive everything else, Reset included (10_state.md R25,
70_reset_and_hazards.md R246). The executed word is
the sampled one, a draw where the line carries none (D11, log entry 12); with Reset asserted on the edge the registers
read 0, and that the edge acts is then the spec's decision D14 (log entry 17). -/
def Obligations.OnlyCmpChangesTheFlags : Prop :=
  ∀ (s t : State) (i : Inputs), eval s i = .next t →
    s.SameFlags t ∨ (s.Healthy ∧ s.RisesOn i ∧ (∃ rest, s.queue = .fetch :: rest) ∧
      ∃ a b, decode (s.wordSeen i) = .cmp a b ∧ t.cmpA = s.regSeen i a ∧ t.cmpB = s.regSeen i b)

/-- JMP (43_control.md R161): `pc` becomes the register's value, clamped to 65535 on its unsigned reading (the spec's
decision D7, log entry 7), and nothing else changes. -/
def Obligations.JmpGoesToClampedRegister : Prop :=
  ∀ (s : State) (a : RegIdx), ∃ t p, exec (.jmp a) s = .next t ∧ s.OnlyPc t p ∧ p.toNat = min (s.reg a).toNat 65535

/-- The conditional jumps (43_control.md R163 to R168): taken exactly when the latched flags stand in the relation, to
the clamped register; not taken, no state changes at all. The signed reading of the ordered compares is the spec's
decision D6 (log entry 6), the clamp its decision D7 (log entry 7). -/
def Obligations.ConditionalJumpsCompareTheFlags : Prop :=
  ∀ (s : State) (a : RegIdx),
    (∃ t, exec (.jgt a) s = .next t ∧ s.OnlyPc t (if s.cmpA.toInt > s.cmpB.toInt then clamp16 (s.reg a) else s.pc)) ∧
    (∃ t, exec (.jge a) s = .next t ∧ s.OnlyPc t (if s.cmpA.toInt ≥ s.cmpB.toInt then clamp16 (s.reg a) else s.pc)) ∧
    (∃ t, exec (.jlt a) s = .next t ∧ s.OnlyPc t (if s.cmpA.toInt < s.cmpB.toInt then clamp16 (s.reg a) else s.pc)) ∧
    (∃ t, exec (.jle a) s = .next t ∧ s.OnlyPc t (if s.cmpA.toInt ≤ s.cmpB.toInt then clamp16 (s.reg a) else s.pc)) ∧
    (∃ t, exec (.jeq a) s = .next t ∧ s.OnlyPc t (if s.cmpA = s.cmpB then clamp16 (s.reg a) else s.pc)) ∧
    (∃ t, exec (.jne a) s = .next t ∧ s.OnlyPc t (if s.cmpA = s.cmpB then s.pc else clamp16 (s.reg a))) ∧
    (clamp16 (s.reg a)).toNat = min (s.reg a).toNat 65535

/-- No instruction reads `pc` (10_state.md R23): executed from two states that differ only in `pc`, an instruction
gives states that differ at most in `pc`, and there only if it left `pc` alone. That DIV and MOD with a zero divisor answer
a next state too is the spec's decision D13 (log entry 16). -/
def Obligations.NoInstructionReadsPc : Prop :=
  ∀ (i : Instr) (s : State) (p : Addr), ∃ t u, exec i s = .next t ∧ exec i (s.setPc p) = .next u ∧
    t.SameRegs u ∧ t.SameFlags u ∧ u.queue = t.queue ∧ t.SamePorts u ∧ t.SameMemory u ∧ t.SameClockAndFault u ∧
    t.SameEnvironment u ∧ (u.pc = t.pc ∨ (t.pc = s.pc ∧ u.pc = p))

/-- The compare flags are read only by the six conditional jumps (10_state.md R25): executed from two states that
differ only in the flags, any other instruction gives states that differ at most in the flags, and there only if it
left them alone. That DIV and MOD with a zero divisor answer a next state too is the spec's
decision D13 (log entry 16). -/
def Obligations.OnlyConditionalJumpsReadTheFlags : Prop :=
  ∀ (i : Instr) (s : State) (a b : Word), isConditionalJump i = false →
    ∃ t u, exec i s = .next t ∧ exec i (s.latchFlags a b) = .next u ∧ t.SameRegs u ∧ u.pc = t.pc ∧
      u.queue = t.queue ∧ t.SamePorts u ∧ t.SameMemory u ∧ t.SameClockAndFault u ∧ t.SameEnvironment u ∧
      (t.SameFlags u ∨ (s.SameFlags t ∧ u.cmpA = a ∧ u.cmpB = b))

/-- How `pc` changes (10_state.md R24): with Reset low, only by a fetch issue (one up, saturating at 65535) or by a
jump (to its clamped register, D7, log entry 7); with Reset high an evaluation that issues no fetch and executes no
jump leaves 0. The executed word is
the sampled one, a draw where the line carries none (D11, log entry 12); with Reset asserted on the edge the registers
read 0, and that the edge acts is then the spec's decision D14 (log entry 17). -/
def Obligations.OnlyFetchJumpAndResetChangePc : Prop :=
  ∀ (s t : State) (i : Inputs), s.Healthy → eval s i = .next t →
    t.pc = (if i.reset then 0 else s.pc) ∨
    (s.RisesOn i ∧ s.queue = [] ∧ t.pc.toNat = min ((if i.reset then 0 else s.pc.toNat) + 1) 65535) ∨
    (s.RisesOn i ∧ (∃ rest, s.queue = .fetch :: rest) ∧ ∃ a, jumpRegister (decode (s.wordSeen i)) = some a ∧
      t.pc.toNat = min (s.regSeen i a).toNat 65535)

/-! ## Data movement -/

/-- LOADIMM ORs its immediate into the half that the marker selects, 0xF the high half and every other marker the low
half; it never clears a bit and changes nothing else (44_move.md R180). -/
def Obligations.LoadimmMergesHalfBitByBit : Prop :=
  ∀ (s : State) (r : RegIdx) (imm : BitVec 16) (m : BitVec 4),
    ∃ t v, exec (.loadimm r imm m) s = .next t ∧ s.OnlyReg t r v ∧
      ∀ k < 32, v.getLsbD k = ((s.reg r).getLsbD k ||
        (if m = 0xF then decide (16 ≤ k) && imm.getLsbD (k - 16) else decide (k < 16) && imm.getLsbD k))

/-- MOV overwrites its destination with the source and changes nothing else (44_move.md R181). -/
def Obligations.MovCopiesTheRegister : Prop :=
  ∀ (s : State) (a d : RegIdx), ∃ t, exec (.mov a d) s = .next t ∧ s.OnlyReg t d (s.reg a)

/-- The registers are written only by Reset, by the SET_REGISTER task, and by an instruction into its destination
(10_state.md R22). The executed word is
the sampled one, a draw where the line carries none (D11, log entry 12); with Reset asserted on the edge the registers
read 0, and that the edge acts is then the spec's decision D14 (log entry 17). -/
def Obligations.OnlyDestinationRegistersChange : Prop :=
  ∀ (s t : State) (i : Inputs) (r : RegIdx), s.Healthy → eval s i = .next t → t.reg r ≠ s.regSeen i r →
    s.RisesOn i ∧ ((∃ rest, s.queue = .setRegister r :: rest) ∨
      (∃ rest, s.queue = .fetch :: rest) ∧ destinationOf (decode (s.wordSeen i)) = some r)

/-! ## Memory access -/

/-- LOAD and LOADR on the edge that executes them (45_memory_access.md R191, R193): a tagged request of the address,
Memory released, one SET_REGISTER task, nothing else; a register's address is its low 16 bits (the spec's decision D8,
log entry 8). Nothing is stored: every word of memory reads as before. -/
def Obligations.LoadsRequestTheWordAndOweTheRegister : Prop :=
  ∀ (s : State) (a d : RegIdx) (imm : Addr),
    (∃ t p, exec (.load d imm) s = .next t ∧ t.address = some p ∧ p.toNat = 0x10000 + imm.toNat ∧
      t.memOut = .released ∧ t.queue = s.queue ++ [.setRegister d] ∧ s.SameRegs t ∧ t.pc = s.pc ∧ s.SameFlags t ∧
      t.stdout = s.stdout ∧ s.SameMemory t ∧ s.SameClockAndFault t ∧ s.SameEnvironment t) ∧
    (∃ t p, exec (.loadr a d) s = .next t ∧ t.address = some p ∧ p.toNat = 0x10000 + (s.reg a).toNat % 65536 ∧
      t.memOut = .released ∧ t.queue = s.queue ++ [.setRegister d] ∧ s.SameRegs t ∧ t.pc = s.pc ∧ s.SameFlags t ∧
      t.stdout = s.stdout ∧ s.SameMemory t ∧ s.SameClockAndFault t ∧ s.SameEnvironment t)

/-- STORE and STORER on the edge that executes them (45_memory_access.md R192, R194): one WRITE task with the address
and the value of now (D21, log entry 22; the register's address is its low 16 bits, D8, log entry 8); no port and no
word of memory changes on this edge. -/
def Obligations.StoresOweOneWrite : Prop :=
  ∀ (s : State) (a b : RegIdx) (imm : Addr),
    (∃ t, exec (.store b imm) s = .next t ∧ t.queue = s.queue ++ [.write imm (s.reg b)] ∧ s.SameRegs t ∧
      t.pc = s.pc ∧ s.SameFlags t ∧ s.SamePorts t ∧ s.SameMemory t ∧ s.SameClockAndFault t ∧ s.SameEnvironment t) ∧
    (∃ t p, exec (.storer a b) s = .next t ∧ p.toNat = (s.reg a).toNat % 65536 ∧
      t.queue = s.queue ++ [.write p (s.reg b)] ∧ s.SameRegs t ∧ t.pc = s.pc ∧ s.SameFlags t ∧ s.SamePorts t ∧
      s.SameMemory t ∧ s.SameClockAndFault t ∧ s.SameEnvironment t)

/-- Memory changes only by a WRITE task, and then only at its address (20_memory.md R58 b: "No other event changes M").
The reference environment is the spec's decision D12; that the word changes in the very evaluation that runs the WRITE
task, and not later before the next rising edge, is the model's choice within it (log entry 13). With Reset asserted on
the edge the task still runs, which is its decision D14 (log entry 17). -/
def Obligations.OnlyTheWriteTaskChangesMemory : Prop :=
  (∀ (s t : State) (i : Inputs), eval s i = .next t → s.SameMemory t ∨
    (s.Healthy ∧ s.RisesOn i ∧ ∃ a v rest, s.queue = .write a v :: rest ∧ s.WordBecomes t a v)) ∧
  ∀ (s : State) (i : Inputs) (a : Addr) (v : Word) (rest : List Task), s.Healthy → s.RisesOn i →
    s.queue = .write a v :: rest → ∃ t, eval s i = .next t ∧ s.WordBecomes t a v

/-- A store is seen by the very next fetch (20_memory.md R62): an instruction-level STORE or STORER to the address of
the next instruction leaves the stored value as the word that the next instruction step decodes. Rests on the reference
environment, decision D12 (log entry 13). -/
def Obligations.StoreToNextAddressIsFetched : Prop :=
  ∀ (s : State) (stdin : Option Word) (a b : RegIdx),
    (∀ imm, decode (s.memWord s.pc) = .store b imm → imm = satinc16 s.pc →
      ∃ t, instrStep stdin s = .next t ∧ t.memWord t.pc = s.reg b) ∧
    (decode (s.memWord s.pc) = .storer a b → (s.reg a).toNat % 65536 = (satinc16 s.pc).toNat →
      ∃ t, instrStep stdin s = .next t ∧ t.memWord t.pc = s.reg b)

/-- The instruction-level view (40_cycle.md R123, R122): in the reference environment, from an idle core, the 2 or 3
clock cycles of an instruction (two evaluations each) end where the one atomic instruction step ends, with the queue
empty again. Rests on the reference environment, decision D12 (log entry 13). A DIV or
MOD with a zero divisor leaves both in the faulted state, the spec's decision D13 (log entry 16); an IN whose Stdin is
not known takes the same draw in both, its decision D11 (log entry 12). -/
def Obligations.EvaluationsRefineInstructionStep : Prop :=
  ∀ (s : State) (stdin : Option Word) (rest : List Stimulus), s.Idle →
    s.stimuli = Stimulus.cycles stdin (edgesOf (decode (s.memWord s.pc))) ++ rest →
    ∃ t u, instrStep stdin s = .next u ∧ s.RunsTo (2 * edgesOf (decode (s.memWord s.pc))) t ∧
      u.SameRegs t ∧ t.pc = u.pc ∧ u.SameFlags t ∧ u.SamePorts t ∧ u.SameMemory t ∧ t.fault = u.fault ∧
      t.queue = [] ∧ t.draws = u.draws ∧ t.stimuli = rest ∧ (t.Healthy → t.Idle)

/-! ## Ports -/

/-- IN takes the Stdin value of the evaluation that executes it and changes nothing else (46_io_nop.md R200); where the
port carries no known value the register takes a draw, and one draw is used up (20_memory.md R64, the spec's decision
D11, log entry 12). -/
def Obligations.InTakesStdinOrADraw : Prop :=
  ∀ (s : State) (d : RegIdx),
    (∀ v, s.input.stdin = some v → ∃ t, exec (.inp d) s = .next t ∧ s.OnlyReg t d v) ∧
    (s.input.stdin = none → ∃ t, exec (.inp d) s = .next t ∧ s.RegBecomes t d (Config.draw s.draws) ∧
      t.draws = s.draws + 1 ∧ t.pc = s.pc ∧ s.SameFlags t ∧ t.queue = s.queue ∧ s.SamePorts t ∧ s.SameMemory t ∧
      s.SameClockAndFault t ∧ t.input = s.input ∧ t.stimuli = s.stimuli)

/-- OUT drives the Stdout latch with the register and changes nothing else (46_io_nop.md R201). -/
def Obligations.OutDrivesStdout : Prop :=
  ∀ (s : State) (a : RegIdx), ∃ t, exec (.out a) s = .next t ∧ t.stdout = some (s.reg a) ∧ t.address = s.address ∧
    t.memOut = s.memOut ∧ s.SameRegs t ∧ t.pc = s.pc ∧ s.SameFlags t ∧ t.queue = s.queue ∧ s.SameMemory t ∧
    s.SameClockAndFault t ∧ s.SameEnvironment t

/-- What each output latch shows (10_state.md R30): Stdout changes only by OUT; Address and MemOut change together, in
four ways only. A fetch issue shows the tagged `pc`, a LOAD its tagged immediate, a LOADR the tagged low half of its
register (D8, log entry 8), each with Memory released; a WRITE task shows its untagged address and its value. That a
latch keeps its value between assertions is the spec's decision D9 (log entry 9). The executed word is the sampled one,
a draw where the line carries none (D11, log entry 12); with Reset asserted on the edge `pc` and the registers read 0,
and that the edge acts is then the spec's decision D14 (log entry 17). -/
def Obligations.LatchesChangeOnlyByTheirAssertions : Prop :=
  ∀ (s t : State) (i : Inputs), eval s i = .next t →
    (t.stdout = s.stdout ∨ (s.RisesOn i ∧ (∃ rest, s.queue = .fetch :: rest) ∧
      ∃ a, decode (s.wordSeen i) = .out a ∧ t.stdout = some (s.regSeen i a))) ∧
    ((t.address = s.address ∧ t.memOut = s.memOut) ∨
      (s.RisesOn i ∧ s.queue = [] ∧ t.memOut = .released ∧
        t.address = some (tagged (if i.reset then 0 else s.pc))) ∨
      (s.RisesOn i ∧ (∃ rest, s.queue = .fetch :: rest) ∧ t.memOut = .released ∧
        ((∃ r imm, decode (s.wordSeen i) = .load r imm ∧ t.address = some (tagged imm)) ∨
          ∃ a d, decode (s.wordSeen i) = .loadr a d ∧ t.address = some (tagged (regAddress (s.regSeen i a))))) ∨
      (s.RisesOn i ∧ ∃ a v rest, s.queue = .write a v :: rest ∧ t.address = some (untagged a) ∧ t.memOut = .drive v))

/-! ## Conventions of the spec -/

/-- A run ends at most once, and its end state is the one the spec gives (70_reset_and_hazards.md R254): the state
after the evaluation that executes a self-jump at `h` for the first time has `pc = h`, an empty queue, the tagged `h` on
Address, Memory released, the last-seen level 1, and no fault. The convention is the spec's decision D17. That the first
time means the first self-jump of the run at any address, on which "at most once" rests, is the model's reading of it
(DEDUCED, log entry 19);
the executed word is the sampled one (D11, log entry 12), and with Reset asserted on the edge it sees zeroed registers
(D14, log entry 17). -/
def Obligations.RunEndsOnceInTheSelfJumpState : Prop :=
  ∀ (s t : State) (k : Nat) (h : Addr), s.RunEnded k h t →
    s.RunsTo k t ∧ t.pc = h ∧ t.queue = [] ∧ t.address = some (tagged h) ∧ t.memOut = .released ∧
      t.clkPrev = true ∧ t.Healthy ∧ ∀ l g u, s.RunEnded l g u → l = k ∧ g = h ∧ u = t

/-- The end of a run repeats (70_reset_and_hazards.md R254): after the edge that executes a self-jump, the reference
environment's next two clock cycles lead to the execution of the same self-jump and back to the same core state, and
in between only `pc`, the queue and the last-seen level move. The convention is the spec's decision D17 (log entry 19),
the reference environment its decision D12 (log entry 13). -/
def Obligations.EndOfRunRepeatsEveryTwoEdges : Prop :=
  ∀ (s : State) (h : Addr) (stdin : Option Word) (rest : List Stimulus), s.ExecutesSelfJump h →
    s.stimuli = Stimulus.rise stdin :: Stimulus.fall stdin :: Stimulus.rise stdin :: Stimulus.fall stdin ::
      Stimulus.rise stdin :: rest →
    ∃ t u v, s.RunEnded 1 h t ∧ t.RunsTo 3 u ∧ u.ExecutesSelfJump h ∧ t.RunsTo 4 v ∧ t.SameCore v ∧
      t.SameMemory v ∧ v.draws = t.draws ∧ v.stimuli = rest ∧
      ∀ k ≤ 4, ∀ x, t.RunsTo k x → t.SameRegs x ∧ t.SameFlags x ∧ t.SamePorts x ∧ t.SameMemory x ∧ x.Healthy

/-- The pseudo-instructions (30_encoding.md R91): NOP changes nothing, CLR clears its register, LI loads any 32-bit
constant whatever the register held; nothing else changes. They are notation of the spec's own, decision D16. -/
def Obligations.PseudoInstructionsDoWhatTheySay : Prop :=
  ∀ (s : State) (d : RegIdx) (v : Word),
    execAll (Pseudo.expand .nop) s = .next s ∧
    (∃ t, execAll (Pseudo.expand (.clr d)) s = .next t ∧ s.OnlyReg t d 0) ∧
    (∃ t, execAll (Pseudo.expand (.li d v)) s = .next t ∧ s.OnlyReg t d v)
end

