-- ==== Sys2Proof/Laws/Encoding.lean ====
section
/-! SUPPORT. What the encoder's words hold, field by field: the numeric value of each format, and from it what each
field of the decoder reads there. -/

namespace Sys2Proof

theorem encodeR_toNat (op : Opcode) (a b d : RegIdx) :
    (encodeR op a b d).toNat = op.toNat * 2 ^ 24 + a.val * 2 ^ 20 + b.val * 2 ^ 16 + d.val * 2 ^ 12 := by
  have ha := a.isLt
  have hb := b.isLt
  have hd := d.isLt
  unfold encodeR
  simp only [BitVec.toNat_append, BitVec.toNat_ofFin, BitVec.toNat_ofNat]
  rw [← Nat.shiftLeft_add_eq_or_of_lt (by omega), ← Nat.shiftLeft_add_eq_or_of_lt (by omega),
    ← Nat.shiftLeft_add_eq_or_of_lt (by omega), ← Nat.shiftLeft_add_eq_or_of_lt (by omega)]
  simp only [Nat.shiftLeft_eq]
  omega

theorem encodeI_toNat (op : Opcode) (r : RegIdx) (imm : BitVec 16) (m : BitVec 4) :
    (encodeI op r imm m).toNat = op.toNat * 2 ^ 24 + r.val * 2 ^ 20 + imm.toNat * 2 ^ 4 + m.toNat := by
  have hr := r.isLt
  have hi := imm.isLt
  have hm := m.isLt
  unfold encodeI
  simp only [BitVec.toNat_append, BitVec.toNat_ofFin]
  rw [← Nat.shiftLeft_add_eq_or_of_lt (by omega), ← Nat.shiftLeft_add_eq_or_of_lt (by omega),
    ← Nat.shiftLeft_add_eq_or_of_lt (by omega)]
  simp only [Nat.shiftLeft_eq]
  omega

theorem encodeUnrecognised_toNat (op : Opcode) : (encodeUnrecognised op).toNat = op.toNat * 2 ^ 24 := by
  unfold encodeUnrecognised
  simp only [BitVec.toNat_append, BitVec.toNat_ofNat]
  rw [← Nat.shiftLeft_add_eq_or_of_lt (by omega)]
  simp only [Nat.shiftLeft_eq]
  omega

theorem opcodeOf_toNat (w : Word) : (opcodeOf w).toNat = w.toNat / 2 ^ 24 := by
  have hw := w.isLt
  simp only [opcodeOf, BitVec.extractLsb'_toNat, Nat.shiftRight_eq_div_pow]
  omega

theorem opcodeOf_encodeR (op : Opcode) (a b d : RegIdx) : opcodeOf (encodeR op a b d) = op := by
  apply BitVec.eq_of_toNat_eq
  rw [opcodeOf_toNat, encodeR_toNat]
  omega

theorem opcodeOf_encodeI (op : Opcode) (r : RegIdx) (imm : BitVec 16) (m : BitVec 4) :
    opcodeOf (encodeI op r imm m) = op := by
  have hi := imm.isLt
  have hm := m.isLt
  apply BitVec.eq_of_toNat_eq
  rw [opcodeOf_toNat, encodeI_toNat]
  omega

theorem opcodeOf_encodeUnrecognised (op : Opcode) : opcodeOf (encodeUnrecognised op) = op := by
  apply BitVec.eq_of_toNat_eq
  rw [opcodeOf_toNat, encodeUnrecognised_toNat]
  omega

theorem fieldA_encodeR (op : Opcode) (a b d : RegIdx) : fieldA (encodeR op a b d) = a := by
  apply Fin.ext
  simp only [fieldA, BitVec.val_toFin, BitVec.extractLsb'_toNat, encodeR_toNat, Nat.shiftRight_eq_div_pow]
  omega

theorem fieldB_encodeR (op : Opcode) (a b d : RegIdx) : fieldB (encodeR op a b d) = b := by
  apply Fin.ext
  simp only [fieldB, BitVec.val_toFin, BitVec.extractLsb'_toNat, encodeR_toNat, Nat.shiftRight_eq_div_pow]
  omega

theorem fieldD_encodeR (op : Opcode) (a b d : RegIdx) : fieldD (encodeR op a b d) = d := by
  apply Fin.ext
  simp only [fieldD, BitVec.val_toFin, BitVec.extractLsb'_toNat, encodeR_toNat, Nat.shiftRight_eq_div_pow]
  omega

theorem fieldR_encodeI (op : Opcode) (r : RegIdx) (imm : BitVec 16) (m : BitVec 4) :
    fieldR (encodeI op r imm m) = r := by
  have hi := imm.isLt
  have hm := m.isLt
  apply Fin.ext
  simp only [fieldR, BitVec.val_toFin, BitVec.extractLsb'_toNat, encodeI_toNat, Nat.shiftRight_eq_div_pow]
  omega

theorem fieldImm_encodeI (op : Opcode) (r : RegIdx) (imm : BitVec 16) (m : BitVec 4) :
    fieldImm (encodeI op r imm m) = imm := by
  have hi := imm.isLt
  have hm := m.isLt
  apply BitVec.eq_of_toNat_eq
  simp only [fieldImm, BitVec.extractLsb'_toNat, encodeI_toNat, Nat.shiftRight_eq_div_pow]
  omega

theorem fieldM_encodeI (op : Opcode) (r : RegIdx) (imm : BitVec 16) (m : BitVec 4) :
    fieldM (encodeI op r imm m) = m := by
  have hm := m.isLt
  apply BitVec.eq_of_toNat_eq
  simp only [fieldM, BitVec.extractLsb'_toNat, encodeI_toNat, Nat.shiftRight_eq_div_pow]
  omega

/-- Every opcode outside 0x01 to 0x1B decodes to the row of the unrecognised opcodes that holds it (30_encoding.md R88). -/
theorem decode_unrecognised (w : Word) (h : (opcodeOf w).toNat = 0 ∨ 0x1C ≤ (opcodeOf w).toNat) :
    decode w = decodeUnrecognised (opcodeOf w) := by
  unfold decode
  split <;> first | omega | rfl

end Sys2Proof
end

