-- ==== Sys2Proof/Laws/State.lean ====
section
/-! SUPPORT. One lemma per field per update of the state, each true by `rfl`, so that no later proof unfolds a record
update. The updates are those of Machine/Ops.lean, Machine/Flags.lean and Machine/Environment.lean. -/

namespace Sys2Proof.Machine

/-! ## `setReg` -/

@[simp] theorem State.setReg_x (s : State) (i : RegIdx) (v : Word) : (s.setReg i v).x = s.x.set i.val v i.isLt := rfl
@[simp] theorem State.setReg_pc (s : State) (i : RegIdx) (v : Word) : (s.setReg i v).pc = s.pc := rfl
@[simp] theorem State.setReg_cmpA (s : State) (i : RegIdx) (v : Word) : (s.setReg i v).cmpA = s.cmpA := rfl
@[simp] theorem State.setReg_cmpB (s : State) (i : RegIdx) (v : Word) : (s.setReg i v).cmpB = s.cmpB := rfl
@[simp] theorem State.setReg_queue (s : State) (i : RegIdx) (v : Word) : (s.setReg i v).queue = s.queue := rfl
@[simp] theorem State.setReg_clkPrev (s : State) (i : RegIdx) (v : Word) : (s.setReg i v).clkPrev = s.clkPrev := rfl
@[simp] theorem State.setReg_address (s : State) (i : RegIdx) (v : Word) : (s.setReg i v).address = s.address := rfl
@[simp] theorem State.setReg_memOut (s : State) (i : RegIdx) (v : Word) : (s.setReg i v).memOut = s.memOut := rfl
@[simp] theorem State.setReg_stdout (s : State) (i : RegIdx) (v : Word) : (s.setReg i v).stdout = s.stdout := rfl
@[simp] theorem State.setReg_fault (s : State) (i : RegIdx) (v : Word) : (s.setReg i v).fault = s.fault := rfl
@[simp] theorem State.setReg_mem (s : State) (i : RegIdx) (v : Word) : (s.setReg i v).mem = s.mem := rfl
@[simp] theorem State.setReg_input (s : State) (i : RegIdx) (v : Word) : (s.setReg i v).input = s.input := rfl
@[simp] theorem State.setReg_stimuli (s : State) (i : RegIdx) (v : Word) : (s.setReg i v).stimuli = s.stimuli := rfl
@[simp] theorem State.setReg_draws (s : State) (i : RegIdx) (v : Word) : (s.setReg i v).draws = s.draws := rfl

/-! ## `setPc` -/

@[simp] theorem State.setPc_x (s : State) (p : Addr) : (s.setPc p).x = s.x := rfl
@[simp] theorem State.setPc_pc (s : State) (p : Addr) : (s.setPc p).pc = p := rfl
@[simp] theorem State.setPc_cmpA (s : State) (p : Addr) : (s.setPc p).cmpA = s.cmpA := rfl
@[simp] theorem State.setPc_cmpB (s : State) (p : Addr) : (s.setPc p).cmpB = s.cmpB := rfl
@[simp] theorem State.setPc_queue (s : State) (p : Addr) : (s.setPc p).queue = s.queue := rfl
@[simp] theorem State.setPc_clkPrev (s : State) (p : Addr) : (s.setPc p).clkPrev = s.clkPrev := rfl
@[simp] theorem State.setPc_address (s : State) (p : Addr) : (s.setPc p).address = s.address := rfl
@[simp] theorem State.setPc_memOut (s : State) (p : Addr) : (s.setPc p).memOut = s.memOut := rfl
@[simp] theorem State.setPc_stdout (s : State) (p : Addr) : (s.setPc p).stdout = s.stdout := rfl
@[simp] theorem State.setPc_fault (s : State) (p : Addr) : (s.setPc p).fault = s.fault := rfl
@[simp] theorem State.setPc_mem (s : State) (p : Addr) : (s.setPc p).mem = s.mem := rfl
@[simp] theorem State.setPc_input (s : State) (p : Addr) : (s.setPc p).input = s.input := rfl
@[simp] theorem State.setPc_stimuli (s : State) (p : Addr) : (s.setPc p).stimuli = s.stimuli := rfl
@[simp] theorem State.setPc_draws (s : State) (p : Addr) : (s.setPc p).draws = s.draws := rfl

/-! ## `latchFlags` -/

@[simp] theorem State.latchFlags_x (s : State) (a b : Word) : (s.latchFlags a b).x = s.x := rfl
@[simp] theorem State.latchFlags_pc (s : State) (a b : Word) : (s.latchFlags a b).pc = s.pc := rfl
@[simp] theorem State.latchFlags_cmpA (s : State) (a b : Word) : (s.latchFlags a b).cmpA = a := rfl
@[simp] theorem State.latchFlags_cmpB (s : State) (a b : Word) : (s.latchFlags a b).cmpB = b := rfl
@[simp] theorem State.latchFlags_queue (s : State) (a b : Word) : (s.latchFlags a b).queue = s.queue := rfl
@[simp] theorem State.latchFlags_clkPrev (s : State) (a b : Word) : (s.latchFlags a b).clkPrev = s.clkPrev := rfl
@[simp] theorem State.latchFlags_address (s : State) (a b : Word) : (s.latchFlags a b).address = s.address := rfl
@[simp] theorem State.latchFlags_memOut (s : State) (a b : Word) : (s.latchFlags a b).memOut = s.memOut := rfl
@[simp] theorem State.latchFlags_stdout (s : State) (a b : Word) : (s.latchFlags a b).stdout = s.stdout := rfl
@[simp] theorem State.latchFlags_fault (s : State) (a b : Word) : (s.latchFlags a b).fault = s.fault := rfl
@[simp] theorem State.latchFlags_mem (s : State) (a b : Word) : (s.latchFlags a b).mem = s.mem := rfl
@[simp] theorem State.latchFlags_input (s : State) (a b : Word) : (s.latchFlags a b).input = s.input := rfl
@[simp] theorem State.latchFlags_stimuli (s : State) (a b : Word) : (s.latchFlags a b).stimuli = s.stimuli := rfl
@[simp] theorem State.latchFlags_draws (s : State) (a b : Word) : (s.latchFlags a b).draws = s.draws := rfl

/-! ## `clear` -/

@[simp] theorem State.clear_x (s : State) : (s.clear).x = Vector.replicate 16 0 := rfl
@[simp] theorem State.clear_pc (s : State) : (s.clear).pc = 0 := rfl
@[simp] theorem State.clear_cmpA (s : State) : (s.clear).cmpA = s.cmpA := rfl
@[simp] theorem State.clear_cmpB (s : State) : (s.clear).cmpB = s.cmpB := rfl
@[simp] theorem State.clear_queue (s : State) : (s.clear).queue = s.queue := rfl
@[simp] theorem State.clear_clkPrev (s : State) : (s.clear).clkPrev = s.clkPrev := rfl
@[simp] theorem State.clear_address (s : State) : (s.clear).address = s.address := rfl
@[simp] theorem State.clear_memOut (s : State) : (s.clear).memOut = s.memOut := rfl
@[simp] theorem State.clear_stdout (s : State) : (s.clear).stdout = s.stdout := rfl
@[simp] theorem State.clear_fault (s : State) : (s.clear).fault = s.fault := rfl
@[simp] theorem State.clear_mem (s : State) : (s.clear).mem = s.mem := rfl
@[simp] theorem State.clear_input (s : State) : (s.clear).input = s.input := rfl
@[simp] theorem State.clear_stimuli (s : State) : (s.clear).stimuli = s.stimuli := rfl
@[simp] theorem State.clear_draws (s : State) : (s.clear).draws = s.draws := rfl

/-! ## `enqueue` -/

@[simp] theorem State.enqueue_x (s : State) (t : Task) : (s.enqueue t).x = s.x := rfl
@[simp] theorem State.enqueue_pc (s : State) (t : Task) : (s.enqueue t).pc = s.pc := rfl
@[simp] theorem State.enqueue_cmpA (s : State) (t : Task) : (s.enqueue t).cmpA = s.cmpA := rfl
@[simp] theorem State.enqueue_cmpB (s : State) (t : Task) : (s.enqueue t).cmpB = s.cmpB := rfl
@[simp] theorem State.enqueue_queue (s : State) (t : Task) : (s.enqueue t).queue = s.queue ++ [t] := rfl
@[simp] theorem State.enqueue_clkPrev (s : State) (t : Task) : (s.enqueue t).clkPrev = s.clkPrev := rfl
@[simp] theorem State.enqueue_address (s : State) (t : Task) : (s.enqueue t).address = s.address := rfl
@[simp] theorem State.enqueue_memOut (s : State) (t : Task) : (s.enqueue t).memOut = s.memOut := rfl
@[simp] theorem State.enqueue_stdout (s : State) (t : Task) : (s.enqueue t).stdout = s.stdout := rfl
@[simp] theorem State.enqueue_fault (s : State) (t : Task) : (s.enqueue t).fault = s.fault := rfl
@[simp] theorem State.enqueue_mem (s : State) (t : Task) : (s.enqueue t).mem = s.mem := rfl
@[simp] theorem State.enqueue_input (s : State) (t : Task) : (s.enqueue t).input = s.input := rfl
@[simp] theorem State.enqueue_stimuli (s : State) (t : Task) : (s.enqueue t).stimuli = s.stimuli := rfl
@[simp] theorem State.enqueue_draws (s : State) (t : Task) : (s.enqueue t).draws = s.draws := rfl

/-! ## `setQueue` -/

@[simp] theorem State.setQueue_x (s : State) (q : List Task) : (s.setQueue q).x = s.x := rfl
@[simp] theorem State.setQueue_pc (s : State) (q : List Task) : (s.setQueue q).pc = s.pc := rfl
@[simp] theorem State.setQueue_cmpA (s : State) (q : List Task) : (s.setQueue q).cmpA = s.cmpA := rfl
@[simp] theorem State.setQueue_cmpB (s : State) (q : List Task) : (s.setQueue q).cmpB = s.cmpB := rfl
@[simp] theorem State.setQueue_queue (s : State) (q : List Task) : (s.setQueue q).queue = q := rfl
@[simp] theorem State.setQueue_clkPrev (s : State) (q : List Task) : (s.setQueue q).clkPrev = s.clkPrev := rfl
@[simp] theorem State.setQueue_address (s : State) (q : List Task) : (s.setQueue q).address = s.address := rfl
@[simp] theorem State.setQueue_memOut (s : State) (q : List Task) : (s.setQueue q).memOut = s.memOut := rfl
@[simp] theorem State.setQueue_stdout (s : State) (q : List Task) : (s.setQueue q).stdout = s.stdout := rfl
@[simp] theorem State.setQueue_fault (s : State) (q : List Task) : (s.setQueue q).fault = s.fault := rfl
@[simp] theorem State.setQueue_mem (s : State) (q : List Task) : (s.setQueue q).mem = s.mem := rfl
@[simp] theorem State.setQueue_input (s : State) (q : List Task) : (s.setQueue q).input = s.input := rfl
@[simp] theorem State.setQueue_stimuli (s : State) (q : List Task) : (s.setQueue q).stimuli = s.stimuli := rfl
@[simp] theorem State.setQueue_draws (s : State) (q : List Task) : (s.setQueue q).draws = s.draws := rfl

/-! ## `driveAddress` -/

@[simp] theorem State.driveAddress_x (s : State) (p : PortAddr) : (s.driveAddress p).x = s.x := rfl
@[simp] theorem State.driveAddress_pc (s : State) (p : PortAddr) : (s.driveAddress p).pc = s.pc := rfl
@[simp] theorem State.driveAddress_cmpA (s : State) (p : PortAddr) : (s.driveAddress p).cmpA = s.cmpA := rfl
@[simp] theorem State.driveAddress_cmpB (s : State) (p : PortAddr) : (s.driveAddress p).cmpB = s.cmpB := rfl
@[simp] theorem State.driveAddress_queue (s : State) (p : PortAddr) : (s.driveAddress p).queue = s.queue := rfl
@[simp] theorem State.driveAddress_clkPrev (s : State) (p : PortAddr) : (s.driveAddress p).clkPrev = s.clkPrev := rfl
@[simp] theorem State.driveAddress_address (s : State) (p : PortAddr) : (s.driveAddress p).address = some p := rfl
@[simp] theorem State.driveAddress_memOut (s : State) (p : PortAddr) : (s.driveAddress p).memOut = s.memOut := rfl
@[simp] theorem State.driveAddress_stdout (s : State) (p : PortAddr) : (s.driveAddress p).stdout = s.stdout := rfl
@[simp] theorem State.driveAddress_fault (s : State) (p : PortAddr) : (s.driveAddress p).fault = s.fault := rfl
@[simp] theorem State.driveAddress_mem (s : State) (p : PortAddr) : (s.driveAddress p).mem = s.mem := rfl
@[simp] theorem State.driveAddress_input (s : State) (p : PortAddr) : (s.driveAddress p).input = s.input := rfl
@[simp] theorem State.driveAddress_stimuli (s : State) (p : PortAddr) : (s.driveAddress p).stimuli = s.stimuli := rfl
@[simp] theorem State.driveAddress_draws (s : State) (p : PortAddr) : (s.driveAddress p).draws = s.draws := rfl

/-! ## `setMemOut` -/

@[simp] theorem State.setMemOut_x (s : State) (m : MemLatch) : (s.setMemOut m).x = s.x := rfl
@[simp] theorem State.setMemOut_pc (s : State) (m : MemLatch) : (s.setMemOut m).pc = s.pc := rfl
@[simp] theorem State.setMemOut_cmpA (s : State) (m : MemLatch) : (s.setMemOut m).cmpA = s.cmpA := rfl
@[simp] theorem State.setMemOut_cmpB (s : State) (m : MemLatch) : (s.setMemOut m).cmpB = s.cmpB := rfl
@[simp] theorem State.setMemOut_queue (s : State) (m : MemLatch) : (s.setMemOut m).queue = s.queue := rfl
@[simp] theorem State.setMemOut_clkPrev (s : State) (m : MemLatch) : (s.setMemOut m).clkPrev = s.clkPrev := rfl
@[simp] theorem State.setMemOut_address (s : State) (m : MemLatch) : (s.setMemOut m).address = s.address := rfl
@[simp] theorem State.setMemOut_memOut (s : State) (m : MemLatch) : (s.setMemOut m).memOut = m := rfl
@[simp] theorem State.setMemOut_stdout (s : State) (m : MemLatch) : (s.setMemOut m).stdout = s.stdout := rfl
@[simp] theorem State.setMemOut_fault (s : State) (m : MemLatch) : (s.setMemOut m).fault = s.fault := rfl
@[simp] theorem State.setMemOut_mem (s : State) (m : MemLatch) : (s.setMemOut m).mem = s.mem := rfl
@[simp] theorem State.setMemOut_input (s : State) (m : MemLatch) : (s.setMemOut m).input = s.input := rfl
@[simp] theorem State.setMemOut_stimuli (s : State) (m : MemLatch) : (s.setMemOut m).stimuli = s.stimuli := rfl
@[simp] theorem State.setMemOut_draws (s : State) (m : MemLatch) : (s.setMemOut m).draws = s.draws := rfl

/-! ## `driveStdout` -/

@[simp] theorem State.driveStdout_x (s : State) (v : Word) : (s.driveStdout v).x = s.x := rfl
@[simp] theorem State.driveStdout_pc (s : State) (v : Word) : (s.driveStdout v).pc = s.pc := rfl
@[simp] theorem State.driveStdout_cmpA (s : State) (v : Word) : (s.driveStdout v).cmpA = s.cmpA := rfl
@[simp] theorem State.driveStdout_cmpB (s : State) (v : Word) : (s.driveStdout v).cmpB = s.cmpB := rfl
@[simp] theorem State.driveStdout_queue (s : State) (v : Word) : (s.driveStdout v).queue = s.queue := rfl
@[simp] theorem State.driveStdout_clkPrev (s : State) (v : Word) : (s.driveStdout v).clkPrev = s.clkPrev := rfl
@[simp] theorem State.driveStdout_address (s : State) (v : Word) : (s.driveStdout v).address = s.address := rfl
@[simp] theorem State.driveStdout_memOut (s : State) (v : Word) : (s.driveStdout v).memOut = s.memOut := rfl
@[simp] theorem State.driveStdout_stdout (s : State) (v : Word) : (s.driveStdout v).stdout = some v := rfl
@[simp] theorem State.driveStdout_fault (s : State) (v : Word) : (s.driveStdout v).fault = s.fault := rfl
@[simp] theorem State.driveStdout_mem (s : State) (v : Word) : (s.driveStdout v).mem = s.mem := rfl
@[simp] theorem State.driveStdout_input (s : State) (v : Word) : (s.driveStdout v).input = s.input := rfl
@[simp] theorem State.driveStdout_stimuli (s : State) (v : Word) : (s.driveStdout v).stimuli = s.stimuli := rfl
@[simp] theorem State.driveStdout_draws (s : State) (v : Word) : (s.driveStdout v).draws = s.draws := rfl

/-! ## `latchClock` -/

@[simp] theorem State.latchClock_x (s : State) : (s.latchClock).x = s.x := rfl
@[simp] theorem State.latchClock_pc (s : State) : (s.latchClock).pc = s.pc := rfl
@[simp] theorem State.latchClock_cmpA (s : State) : (s.latchClock).cmpA = s.cmpA := rfl
@[simp] theorem State.latchClock_cmpB (s : State) : (s.latchClock).cmpB = s.cmpB := rfl
@[simp] theorem State.latchClock_queue (s : State) : (s.latchClock).queue = s.queue := rfl
@[simp] theorem State.latchClock_clkPrev (s : State) : (s.latchClock).clkPrev = s.input.clock := rfl
@[simp] theorem State.latchClock_address (s : State) : (s.latchClock).address = s.address := rfl
@[simp] theorem State.latchClock_memOut (s : State) : (s.latchClock).memOut = s.memOut := rfl
@[simp] theorem State.latchClock_stdout (s : State) : (s.latchClock).stdout = s.stdout := rfl
@[simp] theorem State.latchClock_fault (s : State) : (s.latchClock).fault = s.fault := rfl
@[simp] theorem State.latchClock_mem (s : State) : (s.latchClock).mem = s.mem := rfl
@[simp] theorem State.latchClock_input (s : State) : (s.latchClock).input = s.input := rfl
@[simp] theorem State.latchClock_stimuli (s : State) : (s.latchClock).stimuli = s.stimuli := rfl
@[simp] theorem State.latchClock_draws (s : State) : (s.latchClock).draws = s.draws := rfl

/-! ## `countSample` -/

@[simp] theorem State.countSample_x (s : State) (l : Option Word) : (s.countSample l).x = s.x := rfl
@[simp] theorem State.countSample_pc (s : State) (l : Option Word) : (s.countSample l).pc = s.pc := rfl
@[simp] theorem State.countSample_cmpA (s : State) (l : Option Word) : (s.countSample l).cmpA = s.cmpA := rfl
@[simp] theorem State.countSample_cmpB (s : State) (l : Option Word) : (s.countSample l).cmpB = s.cmpB := rfl
@[simp] theorem State.countSample_queue (s : State) (l : Option Word) : (s.countSample l).queue = s.queue := rfl
@[simp] theorem State.countSample_clkPrev (s : State) (l : Option Word) : (s.countSample l).clkPrev = s.clkPrev := rfl
@[simp] theorem State.countSample_address (s : State) (l : Option Word) : (s.countSample l).address = s.address := rfl
@[simp] theorem State.countSample_memOut (s : State) (l : Option Word) : (s.countSample l).memOut = s.memOut := rfl
@[simp] theorem State.countSample_stdout (s : State) (l : Option Word) : (s.countSample l).stdout = s.stdout := rfl
@[simp] theorem State.countSample_fault (s : State) (l : Option Word) : (s.countSample l).fault = s.fault := rfl
@[simp] theorem State.countSample_mem (s : State) (l : Option Word) : (s.countSample l).mem = s.mem := rfl
@[simp] theorem State.countSample_input (s : State) (l : Option Word) : (s.countSample l).input = s.input := rfl
@[simp] theorem State.countSample_stimuli (s : State) (l : Option Word) : (s.countSample l).stimuli = s.stimuli := rfl
@[simp] theorem State.countSample_draws (s : State) (l : Option Word) : (s.countSample l).draws = if l.isNone then s.draws + 1 else s.draws := rfl

/-! ## `storeWord` -/

@[simp] theorem State.storeWord_x (s : State) (a : Addr) (v : Word) : (s.storeWord a v).x = s.x := rfl
@[simp] theorem State.storeWord_pc (s : State) (a : Addr) (v : Word) : (s.storeWord a v).pc = s.pc := rfl
@[simp] theorem State.storeWord_cmpA (s : State) (a : Addr) (v : Word) : (s.storeWord a v).cmpA = s.cmpA := rfl
@[simp] theorem State.storeWord_cmpB (s : State) (a : Addr) (v : Word) : (s.storeWord a v).cmpB = s.cmpB := rfl
@[simp] theorem State.storeWord_queue (s : State) (a : Addr) (v : Word) : (s.storeWord a v).queue = s.queue := rfl
@[simp] theorem State.storeWord_clkPrev (s : State) (a : Addr) (v : Word) : (s.storeWord a v).clkPrev = s.clkPrev := rfl
@[simp] theorem State.storeWord_address (s : State) (a : Addr) (v : Word) : (s.storeWord a v).address = s.address := rfl
@[simp] theorem State.storeWord_memOut (s : State) (a : Addr) (v : Word) : (s.storeWord a v).memOut = s.memOut := rfl
@[simp] theorem State.storeWord_stdout (s : State) (a : Addr) (v : Word) : (s.storeWord a v).stdout = s.stdout := rfl
@[simp] theorem State.storeWord_fault (s : State) (a : Addr) (v : Word) : (s.storeWord a v).fault = s.fault := rfl
@[simp] theorem State.storeWord_mem (s : State) (a : Addr) (v : Word) : (s.storeWord a v).mem = s.mem.write a.toNat v := rfl
@[simp] theorem State.storeWord_input (s : State) (a : Addr) (v : Word) : (s.storeWord a v).input = s.input := rfl
@[simp] theorem State.storeWord_stimuli (s : State) (a : Addr) (v : Word) : (s.storeWord a v).stimuli = s.stimuli := rfl
@[simp] theorem State.storeWord_draws (s : State) (a : Addr) (v : Word) : (s.storeWord a v).draws = s.draws := rfl

/-! ## `raiseDivideByZero` -/

@[simp] theorem State.raiseDivideByZero_x (s : State) : (s.raiseDivideByZero).x = s.x := rfl
@[simp] theorem State.raiseDivideByZero_pc (s : State) : (s.raiseDivideByZero).pc = s.pc := rfl
@[simp] theorem State.raiseDivideByZero_cmpA (s : State) : (s.raiseDivideByZero).cmpA = s.cmpA := rfl
@[simp] theorem State.raiseDivideByZero_cmpB (s : State) : (s.raiseDivideByZero).cmpB = s.cmpB := rfl
@[simp] theorem State.raiseDivideByZero_queue (s : State) : (s.raiseDivideByZero).queue = s.queue := rfl
@[simp] theorem State.raiseDivideByZero_clkPrev (s : State) : (s.raiseDivideByZero).clkPrev = s.clkPrev := rfl
@[simp] theorem State.raiseDivideByZero_address (s : State) : (s.raiseDivideByZero).address = s.address := rfl
@[simp] theorem State.raiseDivideByZero_memOut (s : State) : (s.raiseDivideByZero).memOut = s.memOut := rfl
@[simp] theorem State.raiseDivideByZero_stdout (s : State) : (s.raiseDivideByZero).stdout = s.stdout := rfl
@[simp] theorem State.raiseDivideByZero_fault (s : State) : (s.raiseDivideByZero).fault = some .divideByZero := rfl
@[simp] theorem State.raiseDivideByZero_mem (s : State) : (s.raiseDivideByZero).mem = s.mem := rfl
@[simp] theorem State.raiseDivideByZero_input (s : State) : (s.raiseDivideByZero).input = s.input := rfl
@[simp] theorem State.raiseDivideByZero_stimuli (s : State) : (s.raiseDivideByZero).stimuli = s.stimuli := rfl
@[simp] theorem State.raiseDivideByZero_draws (s : State) : (s.raiseDivideByZero).draws = s.draws := rfl

/-! ## `present` -/

@[simp] theorem State.present_x (s : State) (i : Inputs) : (s.present i).x = s.x := rfl
@[simp] theorem State.present_pc (s : State) (i : Inputs) : (s.present i).pc = s.pc := rfl
@[simp] theorem State.present_cmpA (s : State) (i : Inputs) : (s.present i).cmpA = s.cmpA := rfl
@[simp] theorem State.present_cmpB (s : State) (i : Inputs) : (s.present i).cmpB = s.cmpB := rfl
@[simp] theorem State.present_queue (s : State) (i : Inputs) : (s.present i).queue = s.queue := rfl
@[simp] theorem State.present_clkPrev (s : State) (i : Inputs) : (s.present i).clkPrev = s.clkPrev := rfl
@[simp] theorem State.present_address (s : State) (i : Inputs) : (s.present i).address = s.address := rfl
@[simp] theorem State.present_memOut (s : State) (i : Inputs) : (s.present i).memOut = s.memOut := rfl
@[simp] theorem State.present_stdout (s : State) (i : Inputs) : (s.present i).stdout = s.stdout := rfl
@[simp] theorem State.present_fault (s : State) (i : Inputs) : (s.present i).fault = s.fault := rfl
@[simp] theorem State.present_mem (s : State) (i : Inputs) : (s.present i).mem = s.mem := rfl
@[simp] theorem State.present_input (s : State) (i : Inputs) : (s.present i).input = i := rfl
@[simp] theorem State.present_stimuli (s : State) (i : Inputs) : (s.present i).stimuli = s.stimuli := rfl
@[simp] theorem State.present_draws (s : State) (i : Inputs) : (s.present i).draws = s.draws := rfl

/-! ## `dropStimulus` -/

@[simp] theorem State.dropStimulus_x (s : State) : (s.dropStimulus).x = s.x := rfl
@[simp] theorem State.dropStimulus_pc (s : State) : (s.dropStimulus).pc = s.pc := rfl
@[simp] theorem State.dropStimulus_cmpA (s : State) : (s.dropStimulus).cmpA = s.cmpA := rfl
@[simp] theorem State.dropStimulus_cmpB (s : State) : (s.dropStimulus).cmpB = s.cmpB := rfl
@[simp] theorem State.dropStimulus_queue (s : State) : (s.dropStimulus).queue = s.queue := rfl
@[simp] theorem State.dropStimulus_clkPrev (s : State) : (s.dropStimulus).clkPrev = s.clkPrev := rfl
@[simp] theorem State.dropStimulus_address (s : State) : (s.dropStimulus).address = s.address := rfl
@[simp] theorem State.dropStimulus_memOut (s : State) : (s.dropStimulus).memOut = s.memOut := rfl
@[simp] theorem State.dropStimulus_stdout (s : State) : (s.dropStimulus).stdout = s.stdout := rfl
@[simp] theorem State.dropStimulus_fault (s : State) : (s.dropStimulus).fault = s.fault := rfl
@[simp] theorem State.dropStimulus_mem (s : State) : (s.dropStimulus).mem = s.mem := rfl
@[simp] theorem State.dropStimulus_input (s : State) : (s.dropStimulus).input = s.input := rfl
@[simp] theorem State.dropStimulus_stimuli (s : State) : (s.dropStimulus).stimuli = s.stimuli.tail := rfl
@[simp] theorem State.dropStimulus_draws (s : State) : (s.dropStimulus).draws = s.draws := rfl

end Sys2Proof.Machine
end

