-- ==== Sys2Proof/Laws/Memory.lean ====
section
/-! SUPPORT. The laws of memory and registers: a read after a write, and that every memory operation keeps the
canonical form. -/

namespace Sys2Proof.Machine

theorem Memory.read_write (m : Memory) (a b : Nat) (v : Word) :
    (m.write a v).read b = if b = a then some v else m.read b := by
  induction m with
  | nil => simp [Memory.write, Memory.read]
  | cons c m ih =>
    obtain ⟨k, u⟩ := c
    simp only [Memory.write]
    split
    · simp [Memory.read]
    · split
      · next h => subst h; simp only [Memory.read]; split <;> rfl
      · next h => simp only [Memory.read, ih]; split <;> split <;> simp_all

theorem Memory.risesFrom_write (m : Memory) (lo a : Nat) (v : Word) (hlo : lo ≤ a) (ha : a < 65536)
    (h : m.risesFrom lo = true) : (m.write a v).risesFrom lo = true := by
  induction m generalizing lo with
  | nil => simp [Memory.write, Memory.risesFrom, hlo, ha]
  | cons c m ih =>
    obtain ⟨k, u⟩ := c
    simp only [Memory.risesFrom, Bool.and_eq_true, decide_eq_true_eq] at h
    obtain ⟨⟨h1, h2⟩, h3⟩ := h
    simp only [Memory.write]
    split
    · simp only [Memory.risesFrom, Bool.and_eq_true, decide_eq_true_eq]
      exact ⟨⟨hlo, ha⟩, ⟨by omega, h2⟩, h3⟩
    · split
      · next he =>
        subst he
        simp only [Memory.risesFrom, Bool.and_eq_true, decide_eq_true_eq]
        exact ⟨⟨hlo, ha⟩, h3⟩
      · next h4 h5 =>
        simp only [Memory.risesFrom, Bool.and_eq_true, decide_eq_true_eq]
        exact ⟨⟨h1, h2⟩, ih (k + 1) (by omega) h3⟩

/-- The one memory operation keeps the canonical form. -/
theorem Memory.wf_write (m : Memory) (a : Addr) (v : Word) (h : m.wf = true) : (m.write a.toNat v).wf = true :=
  Memory.risesFrom_write m 0 a.toNat v (Nat.zero_le _) a.isLt h

/-- Nothing is listed below the bound from which the addresses rise. -/
theorem Memory.read_below (m : Memory) (lo b : Nat) (h : m.risesFrom lo = true) (hb : b < lo) : m.read b = none := by
  induction m generalizing lo with
  | nil => rfl
  | cons c m ih =>
    obtain ⟨k, u⟩ := c
    simp only [Memory.risesFrom, Bool.and_eq_true, decide_eq_true_eq] at h
    obtain ⟨⟨h1, _⟩, h3⟩ := h
    simp only [Memory.read]
    rw [if_neg (by omega)]
    exact ih (k + 1) h3 (by omega)

theorem reset_mem_wf : State.reset.mem.wf = true := rfl

/-- Reading a word after a store. -/
@[simp] theorem State.memWord_storeWord (s : State) (a b : Addr) (v : Word) :
    (s.storeWord a v).memWord b = if b = a then v else s.memWord b := by
  simp only [State.memWord, State.storeWord, Memory.read_write]
  by_cases h : b = a
  · simp [h]
  · have : b.toNat ≠ a.toNat := fun e => h (BitVec.eq_of_toNat_eq e)
    simp [h, this]

/-- A word reads the same in two states with the same listed memory. -/
theorem State.memWord_congr {s t : State} (h : t.mem = s.mem) (a : Addr) : t.memWord a = s.memWord a := by
  simp only [State.memWord, h]

/-- Reading a register after a write: no register is hardwired (10_state.md R21). -/
@[simp] theorem State.reg_setReg (s : State) (d i : RegIdx) (v : Word) :
    (s.setReg d v).reg i = if i = d then v else s.reg i := by
  have hi := i.isLt
  simp only [State.reg, State.setReg, Fin.getElem_fin, Vector.getElem_set]
  by_cases h : i = d
  · simp [h]
  · have : ¬ d.val = i.val := fun e => h (Fin.ext e.symm)
    simp [h, this]

/-- A register reads the same in two states with the same register file. -/
theorem State.reg_congr {s t : State} (h : t.x = s.x) (i : RegIdx) : t.reg i = s.reg i := by
  simp only [State.reg, h]

/-- After the clear every register reads 0 (40_cycle.md R111). -/
@[simp] theorem State.reg_clear (s : State) (i : RegIdx) : s.clear.reg i = 0 := by
  simp [State.reg, State.clear]

@[simp] theorem State.reg_setPc (s : State) (p : Addr) (i : RegIdx) : (s.setPc p).reg i = s.reg i := rfl
@[simp] theorem State.reg_latchFlags (s : State) (a b : Word) (i : RegIdx) : (s.latchFlags a b).reg i = s.reg i := rfl
@[simp] theorem State.reg_enqueue (s : State) (t : Task) (i : RegIdx) : (s.enqueue t).reg i = s.reg i := rfl
@[simp] theorem State.reg_setQueue (s : State) (q : List Task) (i : RegIdx) : (s.setQueue q).reg i = s.reg i := rfl
@[simp] theorem State.reg_driveAddress (s : State) (p : PortAddr) (i : RegIdx) :
    (s.driveAddress p).reg i = s.reg i := rfl
@[simp] theorem State.reg_setMemOut (s : State) (m : MemLatch) (i : RegIdx) : (s.setMemOut m).reg i = s.reg i := rfl
@[simp] theorem State.reg_driveStdout (s : State) (v : Word) (i : RegIdx) : (s.driveStdout v).reg i = s.reg i := rfl
@[simp] theorem State.reg_latchClock (s : State) (i : RegIdx) : s.latchClock.reg i = s.reg i := rfl
@[simp] theorem State.reg_countSample (s : State) (l : Option Word) (i : RegIdx) :
    (s.countSample l).reg i = s.reg i := rfl
@[simp] theorem State.reg_storeWord (s : State) (a : Addr) (v : Word) (i : RegIdx) :
    (s.storeWord a v).reg i = s.reg i := rfl
@[simp] theorem State.reg_raiseDivideByZero (s : State) (i : RegIdx) : s.raiseDivideByZero.reg i = s.reg i := rfl
@[simp] theorem State.reg_present (s : State) (n : Inputs) (i : RegIdx) : (s.present n).reg i = s.reg i := rfl
@[simp] theorem State.reg_dropStimulus (s : State) (i : RegIdx) : s.dropStimulus.reg i = s.reg i := rfl

@[simp] theorem State.memWord_setReg (s : State) (d : RegIdx) (v : Word) (a : Addr) :
    (s.setReg d v).memWord a = s.memWord a := rfl
@[simp] theorem State.memWord_setPc (s : State) (p : Addr) (a : Addr) : (s.setPc p).memWord a = s.memWord a := rfl
@[simp] theorem State.memWord_latchFlags (s : State) (u v : Word) (a : Addr) :
    (s.latchFlags u v).memWord a = s.memWord a := rfl
@[simp] theorem State.memWord_clear (s : State) (a : Addr) : s.clear.memWord a = s.memWord a := rfl
@[simp] theorem State.memWord_enqueue (s : State) (t : Task) (a : Addr) : (s.enqueue t).memWord a = s.memWord a := rfl
@[simp] theorem State.memWord_setQueue (s : State) (q : List Task) (a : Addr) :
    (s.setQueue q).memWord a = s.memWord a := rfl
@[simp] theorem State.memWord_driveAddress (s : State) (p : PortAddr) (a : Addr) :
    (s.driveAddress p).memWord a = s.memWord a := rfl
@[simp] theorem State.memWord_setMemOut (s : State) (m : MemLatch) (a : Addr) :
    (s.setMemOut m).memWord a = s.memWord a := rfl
@[simp] theorem State.memWord_driveStdout (s : State) (v : Word) (a : Addr) :
    (s.driveStdout v).memWord a = s.memWord a := rfl
@[simp] theorem State.memWord_latchClock (s : State) (a : Addr) : s.latchClock.memWord a = s.memWord a := rfl
@[simp] theorem State.memWord_countSample (s : State) (l : Option Word) (a : Addr) :
    (s.countSample l).memWord a = s.memWord a := rfl
@[simp] theorem State.memWord_raiseDivideByZero (s : State) (a : Addr) :
    s.raiseDivideByZero.memWord a = s.memWord a := rfl
@[simp] theorem State.memWord_present (s : State) (n : Inputs) (a : Addr) :
    (s.present n).memWord a = s.memWord a := rfl
@[simp] theorem State.memWord_dropStimulus (s : State) (a : Addr) : s.dropStimulus.memWord a = s.memWord a := rfl

end Sys2Proof.Machine
end

