-- ==== Sys2Proof/Laws/Ops.lean ====
section
/-! SUPPORT. One lemma for each composite operation, saying once everything it does: the state it gives, as one record
update. The arithmetic helpers have their defining values beside them. -/

namespace Sys2Proof.Machine

/-- Everything a read request does: the two memory-side latches. -/
theorem State.requestRead_eq (s : State) (a : Addr) :
    s.requestRead a = { s with address := some (tagged a), memOut := .released } := rfl

/-- Everything the WRITE task does: the two memory-side latches, and the word the environment captures. -/
theorem State.runWrite_eq (s : State) (a : Addr) (v : Word) :
    s.runWrite a v =
      { s with address := some (untagged a), memOut := .drive v, mem := s.mem.write a.toNat v } := rfl

/-- Everything the SET_REGISTER task does: one register, and one draw if the line is unknown. -/
theorem State.runSetRegister_eq (s : State) (i : RegIdx) :
    s.runSetRegister i = (s.countSample s.input.memory).setReg i (s.sampled s.input.memory) := rfl

/-- Everything a fetch issue does: the two latches, `pc`, one task. -/
theorem State.fetchIssue_eq (s : State) :
    s.fetchIssue =
      { s with
        address := some (tagged s.pc)
        memOut := .released
        pc := satinc16 s.pc
        queue := s.queue ++ [.fetch] } := rfl

/-- Everything the first half of a load does: the two latches, one task. -/
theorem State.startLoad_eq (s : State) (a : Addr) (i : RegIdx) :
    s.startLoad a i =
      { s with address := some (tagged a), memOut := .released, queue := s.queue ++ [.setRegister i] } := rfl

/-- Everything the first half of a store does: one task. -/
theorem State.startStore_eq (s : State) (a : Addr) (v : Word) :
    s.startStore a v = { s with queue := s.queue ++ [.write a v] } := rfl

/-- Everything a jump does: `pc`. -/
theorem State.jumpIf_eq (s : State) (c : Bool) (v : Word) :
    s.jumpIf c v = { s with pc := if c then clamp16 v else s.pc } := rfl

theorem State.sampled_some (s : State) (v : Word) : s.sampled (some v) = v := rfl

theorem State.sampled_none (s : State) : s.sampled none = Config.draw s.draws := rfl

theorem State.countSample_some (s : State) (v : Word) : s.countSample (some v) = s := rfl

theorem clamp16_toNat (v : Word) : (clamp16 v).toNat = min v.toNat 65535 := by
  unfold clamp16
  split
  · next h =>
    have : min v.toNat 65535 = 65535 := by omega
    rw [this]; rfl
  · next h =>
    simp only [BitVec.extractLsb'_toNat, Nat.shiftRight_zero]
    omega

theorem satinc16_toNat (p : Addr) : (satinc16 p).toNat = min (p.toNat + 1) 65535 := by
  unfold satinc16
  split
  · next h => subst h; rfl
  · next h =>
    have h1 : p.toNat ≠ 65535 := fun e => h (BitVec.eq_of_toNat_eq (by simpa using e))
    have h2 := p.isLt
    have h3 : (1 : Addr).toNat = 1 := rfl
    rw [BitVec.toNat_add, h3]
    omega

theorem shamt_eq (v : Word) : shamt v = v.toNat % 32 := by
  simp [shamt, BitVec.extractLsb'_toNat]

theorem tagged_toNat (a : Addr) : (tagged a).toNat = 0x10000 + a.toNat := by
  have ha := a.isLt
  simp only [tagged, BitVec.toNat_append]
  rw [← Nat.shiftLeft_add_eq_or_of_lt (by omega)]
  simp [Nat.shiftLeft_eq]

theorem untagged_toNat (a : Addr) : (untagged a).toNat = a.toNat := by
  have ha := a.isLt
  simp only [untagged, BitVec.toNat_append]
  rw [← Nat.shiftLeft_add_eq_or_of_lt (by omega)]
  simp [Nat.shiftLeft_eq]

theorem tagged_tag (a : Addr) : (tagged a).getLsbD 16 = true := by
  have ha := a.isLt
  rw [BitVec.getLsbD, tagged_toNat, Nat.testBit_eq_decide_div_mod_eq]
  simp only [decide_eq_true_eq]
  omega

theorem tagged_address (a : Addr) : (tagged a).extractLsb' 0 16 = a := by
  have ha := a.isLt
  apply BitVec.eq_of_toNat_eq
  rw [BitVec.extractLsb'_toNat, tagged_toNat, Nat.shiftRight_zero]
  omega

/-- The reference memory answers a request with the word at its address (20_memory.md R58 a). -/
theorem State.memoryAnswer_of_request {s : State} {a : Addr} (ha : s.address = some (tagged a))
    (hm : s.memOut = .released) : s.memoryAnswer = some (s.memWord a) := by
  simp [State.memoryAnswer, ha, hm, tagged_tag, tagged_address]

end Sys2Proof.Machine
end

