-- ==== Sys2Proof/Laws/PerInstr.lean ====
section
/-! SUPPORT. The per-instruction family EncodedOpcode: the canonical word of a well-formed instruction carries the
instruction's own opcode byte (30_encoding.md R87, R93), one lemma per constructor. -/

namespace Sys2Proof.Laws.EncodedOpcode

/-- The opcode byte of an instruction, from the map of 30_encoding.md R87. -/
def byteOf : Instr → Opcode
  | .add _ _ _ => 0x01
  | .sub _ _ _ => 0x02
  | .mul _ _ _ => 0x03
  | .div _ _ _ => 0x04
  | .mod _ _ _ => 0x05
  | .and _ _ _ => 0x06
  | .or _ _ _ => 0x07
  | .not _ _ => 0x08
  | .xor _ _ _ => 0x09
  | .shl _ _ _ => 0x0A
  | .shr _ _ _ => 0x0B
  | .jmp _ => 0x0C
  | .cmp _ _ => 0x0D
  | .jgt _ => 0x0E
  | .jge _ => 0x0F
  | .jlt _ => 0x10
  | .jle _ => 0x11
  | .jeq _ => 0x12
  | .jne _ => 0x13
  | .loadimm _ _ _ => 0x14
  | .mov _ _ => 0x15
  | .load _ _ => 0x16
  | .store _ _ => 0x17
  | .loadr _ _ => 0x18
  | .storer _ _ => 0x19
  | .inp _ => 0x1A
  | .out _ => 0x1B
  | .nop00 => 0x00
  | .nop1C op => op
  | .nop20 op => op
  | .nop40 op => op
  | .nop80 op => op

/-- The encoded word carries the instruction's opcode byte. -/
def Statement (i : Instr) : Prop := i.wf = true → opcodeOf (encode i) = byteOf i

theorem add (a b d : RegIdx) : Statement (.add a b d) := fun _ => opcodeOf_encodeR _ _ _ _
theorem sub (a b d : RegIdx) : Statement (.sub a b d) := fun _ => opcodeOf_encodeR _ _ _ _
theorem mul (a b d : RegIdx) : Statement (.mul a b d) := fun _ => opcodeOf_encodeR _ _ _ _
theorem div (a b d : RegIdx) : Statement (.div a b d) := fun _ => opcodeOf_encodeR _ _ _ _
theorem mod (a b d : RegIdx) : Statement (.mod a b d) := fun _ => opcodeOf_encodeR _ _ _ _
theorem and (a b d : RegIdx) : Statement (.and a b d) := fun _ => opcodeOf_encodeR _ _ _ _
theorem or (a b d : RegIdx) : Statement (.or a b d) := fun _ => opcodeOf_encodeR _ _ _ _
theorem not (a d : RegIdx) : Statement (.not a d) := fun _ => opcodeOf_encodeR _ _ _ _
theorem xor (a b d : RegIdx) : Statement (.xor a b d) := fun _ => opcodeOf_encodeR _ _ _ _
theorem shl (a b d : RegIdx) : Statement (.shl a b d) := fun _ => opcodeOf_encodeR _ _ _ _
theorem shr (a b d : RegIdx) : Statement (.shr a b d) := fun _ => opcodeOf_encodeR _ _ _ _
theorem jmp (a : RegIdx) : Statement (.jmp a) := fun _ => opcodeOf_encodeR _ _ _ _
theorem cmp (a b : RegIdx) : Statement (.cmp a b) := fun _ => opcodeOf_encodeR _ _ _ _
theorem jgt (a : RegIdx) : Statement (.jgt a) := fun _ => opcodeOf_encodeR _ _ _ _
theorem jge (a : RegIdx) : Statement (.jge a) := fun _ => opcodeOf_encodeR _ _ _ _
theorem jlt (a : RegIdx) : Statement (.jlt a) := fun _ => opcodeOf_encodeR _ _ _ _
theorem jle (a : RegIdx) : Statement (.jle a) := fun _ => opcodeOf_encodeR _ _ _ _
theorem jeq (a : RegIdx) : Statement (.jeq a) := fun _ => opcodeOf_encodeR _ _ _ _
theorem jne (a : RegIdx) : Statement (.jne a) := fun _ => opcodeOf_encodeR _ _ _ _
theorem loadimm (r : RegIdx) (imm : BitVec 16) (m : BitVec 4) : Statement (.loadimm r imm m) :=
  fun _ => opcodeOf_encodeI _ _ _ _
theorem mov (a d : RegIdx) : Statement (.mov a d) := fun _ => opcodeOf_encodeR _ _ _ _
theorem load (r : RegIdx) (imm : Addr) : Statement (.load r imm) := fun _ => opcodeOf_encodeI _ _ _ _
theorem store (r : RegIdx) (imm : Addr) : Statement (.store r imm) := fun _ => opcodeOf_encodeI _ _ _ _
theorem loadr (a d : RegIdx) : Statement (.loadr a d) := fun _ => opcodeOf_encodeR _ _ _ _
theorem storer (a b : RegIdx) : Statement (.storer a b) := fun _ => opcodeOf_encodeR _ _ _ _
theorem inp (d : RegIdx) : Statement (.inp d) := fun _ => opcodeOf_encodeR _ _ _ _
theorem out (a : RegIdx) : Statement (.out a) := fun _ => opcodeOf_encodeR _ _ _ _
theorem nop00 : Statement .nop00 := fun _ => opcodeOf_encodeUnrecognised _
theorem nop1C (op : Opcode) : Statement (.nop1C op) := fun _ => opcodeOf_encodeUnrecognised _
theorem nop20 (op : Opcode) : Statement (.nop20 op) := fun _ => opcodeOf_encodeUnrecognised _
theorem nop40 (op : Opcode) : Statement (.nop40 op) := fun _ => opcodeOf_encodeUnrecognised _
theorem nop80 (op : Opcode) : Statement (.nop80 op) := fun _ => opcodeOf_encodeUnrecognised _

end Sys2Proof.Laws.EncodedOpcode
end

