-- ==== Sys2Proof/Laws/Step.lean ====
section
/-! SUPPORT. What an execution, a rising edge, an evaluation and a step can do, said once: inversion lemmas that later
proofs cite instead of unfolding the step. -/

namespace Sys2Proof.Machine

/-- Everything an instruction can do: write one register, sample Stdin into one, jump, latch the flags, start a load,
start a store, drive Stdout, raise the exception, or nothing. -/
theorem exec_cases {i : Instr} {s t : State} (h : exec i s = .next t) :
    (∃ d v, t = s.setReg d v) ∨
    (∃ d, i = .inp d ∧ t = (s.countSample s.input.stdin).setReg d (s.sampled s.input.stdin)) ∨
    (∃ c v, t = s.jumpIf c v) ∨
    (∃ a b, i = .cmp a b ∧ t = s.latchFlags (s.reg a) (s.reg b)) ∨
    (∃ p d, t = s.startLoad p d ∧ (i = .load d p ∨ ∃ a, i = .loadr a d ∧ p = regAddress (s.reg a))) ∨
    (∃ a v, t = s.startStore a v) ∨
    (∃ a, i = .out a ∧ t = s.driveStdout (s.reg a)) ∨
    (t = s.raiseDivideByZero ∧ ∃ a b d, (i = .div a b d ∨ i = .mod a b d) ∧ s.reg b = 0) ∨
    t = s := by
  cases i with
  | add a b d => exact .inl ⟨d, _, (Host.Outcome.next.inj h).symm⟩
  | sub a b d => exact .inl ⟨d, _, (Host.Outcome.next.inj h).symm⟩
  | mul a b d => exact .inl ⟨d, _, (Host.Outcome.next.inj h).symm⟩
  | and a b d => exact .inl ⟨d, _, (Host.Outcome.next.inj h).symm⟩
  | or a b d => exact .inl ⟨d, _, (Host.Outcome.next.inj h).symm⟩
  | not a d => exact .inl ⟨d, _, (Host.Outcome.next.inj h).symm⟩
  | xor a b d => exact .inl ⟨d, _, (Host.Outcome.next.inj h).symm⟩
  | shl a b d => exact .inl ⟨d, _, (Host.Outcome.next.inj h).symm⟩
  | shr a b d => exact .inl ⟨d, _, (Host.Outcome.next.inj h).symm⟩
  | loadimm r imm m => exact .inl ⟨r, _, (Host.Outcome.next.inj h).symm⟩
  | mov a d => exact .inl ⟨d, _, (Host.Outcome.next.inj h).symm⟩
  | div a b d =>
    simp only [exec, execDiv] at h
    split at h
    · next hz =>
      exact .inr (.inr (.inr (.inr (.inr (.inr (.inr (.inl
        ⟨(Host.Outcome.next.inj h).symm, a, b, d, .inl rfl, hz⟩)))))))
    · exact .inl ⟨d, _, (Host.Outcome.next.inj h).symm⟩
  | mod a b d =>
    simp only [exec, execMod] at h
    split at h
    · next hz =>
      exact .inr (.inr (.inr (.inr (.inr (.inr (.inr (.inl
        ⟨(Host.Outcome.next.inj h).symm, a, b, d, .inr rfl, hz⟩)))))))
    · exact .inl ⟨d, _, (Host.Outcome.next.inj h).symm⟩
  | inp d => exact .inr (.inl ⟨d, rfl, (Host.Outcome.next.inj h).symm⟩)
  | jmp a => exact .inr (.inr (.inl ⟨_, _, (Host.Outcome.next.inj h).symm⟩))
  | jgt a => exact .inr (.inr (.inl ⟨_, _, (Host.Outcome.next.inj h).symm⟩))
  | jge a => exact .inr (.inr (.inl ⟨_, _, (Host.Outcome.next.inj h).symm⟩))
  | jlt a => exact .inr (.inr (.inl ⟨_, _, (Host.Outcome.next.inj h).symm⟩))
  | jle a => exact .inr (.inr (.inl ⟨_, _, (Host.Outcome.next.inj h).symm⟩))
  | jeq a => exact .inr (.inr (.inl ⟨_, _, (Host.Outcome.next.inj h).symm⟩))
  | jne a => exact .inr (.inr (.inl ⟨_, _, (Host.Outcome.next.inj h).symm⟩))
  | cmp a b => exact .inr (.inr (.inr (.inl ⟨a, b, rfl, (Host.Outcome.next.inj h).symm⟩)))
  | load r imm => exact .inr (.inr (.inr (.inr (.inl ⟨_, _, (Host.Outcome.next.inj h).symm, .inl rfl⟩))))
  | loadr a d => exact .inr (.inr (.inr (.inr (.inl ⟨_, _, (Host.Outcome.next.inj h).symm, .inr ⟨a, rfl, rfl⟩⟩))))
  | store r imm => exact .inr (.inr (.inr (.inr (.inr (.inl ⟨_, _, (Host.Outcome.next.inj h).symm⟩)))))
  | storer a b => exact .inr (.inr (.inr (.inr (.inr (.inl ⟨_, _, (Host.Outcome.next.inj h).symm⟩)))))
  | out a => exact .inr (.inr (.inr (.inr (.inr (.inr (.inl ⟨a, rfl, (Host.Outcome.next.inj h).symm⟩))))))
  | nop00 => exact .inr (.inr (.inr (.inr (.inr (.inr (.inr (.inr (Host.Outcome.next.inj h).symm)))))))
  | nop1C op => exact .inr (.inr (.inr (.inr (.inr (.inr (.inr (.inr (Host.Outcome.next.inj h).symm)))))))
  | nop20 op => exact .inr (.inr (.inr (.inr (.inr (.inr (.inr (.inr (Host.Outcome.next.inj h).symm)))))))
  | nop40 op => exact .inr (.inr (.inr (.inr (.inr (.inr (.inr (.inr (Host.Outcome.next.inj h).symm)))))))
  | nop80 op => exact .inr (.inr (.inr (.inr (.inr (.inr (.inr (.inr (Host.Outcome.next.inj h).symm)))))))

/-- Everything a rising edge can do (40_cycle.md R114). -/
theorem risingEdge_cases {s t : State} (h : s.risingEdge = .next t) :
    (s.queue = [] ∧ t = s.fetchIssue) ∨
    (∃ rest, s.queue = .fetch :: rest ∧ (s.setQueue rest).runFetch = .next t) ∨
    (∃ a v rest, s.queue = .write a v :: rest ∧ t = (s.setQueue rest).runWrite a v) ∨
    (∃ i rest, s.queue = .setRegister i :: rest ∧ t = (s.setQueue rest).runSetRegister i) := by
  unfold State.risingEdge at h
  split at h
  · next hq => exact .inl ⟨hq, (Host.Outcome.next.inj h).symm⟩
  · next k rest hq =>
    cases k with
    | fetch => exact .inr (.inl ⟨rest, hq, h⟩)
    | write a v => exact .inr (.inr (.inl ⟨a, v, rest, hq, (Host.Outcome.next.inj h).symm⟩))
    | setRegister i => exact .inr (.inr (.inr ⟨i, rest, hq, (Host.Outcome.next.inj h).symm⟩))

/-- Everything an evaluation can do (40_cycle.md R110): nothing if faulted, the clear and the clock latch without a
rising edge, one rising edge otherwise. -/
theorem evaluate_cases {s t : State} (h : s.evaluate = .next t) :
    (s.fault ≠ none ∧ t = s) ∨
    (s.fault = none ∧ s.rising = false ∧ t = s.applyReset.latchClock) ∨
    (s.fault = none ∧ s.rising = true ∧ s.applyReset.latchClock.risingEdge = .next t) := by
  unfold State.evaluate at h
  split at h
  · next f hf => exact .inl ⟨by simp [hf], (Host.Outcome.next.inj h).symm⟩
  · next hf =>
    split at h
    · next hr => exact .inr (.inr ⟨hf, hr, h⟩)
    · next hr => exact .inr (.inl ⟨hf, by simpa using hr, (Host.Outcome.next.inj h).symm⟩)

/-- An evaluation of a core that has not faulted, on a rising edge. -/
theorem evaluate_rising {s : State} (hf : s.fault = none) (hr : s.rising = true) :
    s.evaluate = s.applyReset.latchClock.risingEdge := by
  simp [State.evaluate, hf, hr]

/-- An evaluation of a core that has not faulted, without a rising edge. -/
theorem evaluate_not_rising {s : State} (hf : s.fault = none) (hr : s.rising = false) :
    s.evaluate = .next s.applyReset.latchClock := by
  simp [State.evaluate, hf, hr]

/-- An evaluation of a faulted core (40_cycle.md R121). -/
theorem evaluate_faulted {s : State} {f : Fault} (hf : s.fault = some f) : s.evaluate = .next s := by
  simp [State.evaluate, hf]

/-! ## Step 1 of an evaluation, field by field (40_cycle.md R111, 10_state.md R33) -/

@[simp] theorem State.applyReset_reg (s : State) (i : RegIdx) :
    s.applyReset.reg i = if s.input.reset then 0 else s.reg i := by
  unfold State.applyReset; split <;> simp

@[simp] theorem State.applyReset_pc (s : State) : s.applyReset.pc = if s.input.reset then 0 else s.pc := by
  unfold State.applyReset; split <;> simp

@[simp] theorem State.applyReset_memWord (s : State) (a : Addr) : s.applyReset.memWord a = s.memWord a := by
  unfold State.applyReset; split <;> simp

@[simp] theorem State.applyReset_cmpA (s : State) : s.applyReset.cmpA = s.cmpA := by
  unfold State.applyReset; split <;> rfl

@[simp] theorem State.applyReset_cmpB (s : State) : s.applyReset.cmpB = s.cmpB := by
  unfold State.applyReset; split <;> rfl

@[simp] theorem State.applyReset_queue (s : State) : s.applyReset.queue = s.queue := by
  unfold State.applyReset; split <;> rfl

@[simp] theorem State.applyReset_clkPrev (s : State) : s.applyReset.clkPrev = s.clkPrev := by
  unfold State.applyReset; split <;> rfl

@[simp] theorem State.applyReset_address (s : State) : s.applyReset.address = s.address := by
  unfold State.applyReset; split <;> rfl

@[simp] theorem State.applyReset_memOut (s : State) : s.applyReset.memOut = s.memOut := by
  unfold State.applyReset; split <;> rfl

@[simp] theorem State.applyReset_stdout (s : State) : s.applyReset.stdout = s.stdout := by
  unfold State.applyReset; split <;> rfl

@[simp] theorem State.applyReset_fault (s : State) : s.applyReset.fault = s.fault := by
  unfold State.applyReset; split <;> rfl

@[simp] theorem State.applyReset_mem (s : State) : s.applyReset.mem = s.mem := by
  unfold State.applyReset; split <;> rfl

@[simp] theorem State.applyReset_input (s : State) : s.applyReset.input = s.input := by
  unfold State.applyReset; split <;> rfl

@[simp] theorem State.applyReset_stimuli (s : State) : s.applyReset.stimuli = s.stimuli := by
  unfold State.applyReset; split <;> rfl

@[simp] theorem State.applyReset_draws (s : State) : s.applyReset.draws = s.draws := by
  unfold State.applyReset; split <;> rfl

/-- The edge detector, in the words of 40_cycle.md R112. -/
theorem State.rising_present (s : State) (i : Inputs) :
    (s.present i).rising = true ↔ s.clkPrev = false ∧ i.clock = true := by
  simp [State.rising, State.present]

/-- With Reset low, step 1 does nothing. -/
theorem applyReset_low {s : State} (h : s.input.reset = false) : s.applyReset = s := by
  simp [State.applyReset, h]

/-- With Reset high, step 1 is the clear. -/
theorem applyReset_high {s : State} (h : s.input.reset = true) : s.applyReset = s.clear := by
  simp [State.applyReset, h]

/-- A run of one more step. -/
theorem run_succ (s t : State) (k : Nat) (h : step s = .next t) :
    Sys2Proof.core.run (k + 1) s = Sys2Proof.core.run k t := by
  have hc : Sys2Proof.core.step = step := rfl
  simp only [Host.Core.run, hc]
  rw [h]

end Sys2Proof.Machine
end

