-- ==== Sys2Proof/Tests/Slice0.lean ====
section
/-! SUPPORT. Our own tests: the WellFormed smoke tests, words written out from the spec's encodings, the spec's own
vectors (95_test_vectors.md) one instruction at a time, and for each statement with hypotheses a named witness that
meets them. Expected results are the spec's, not the model's. -/

namespace Sys2Proof.Tests

open Sys2Proof Sys2Proof.Machine

/-! ## WellFormed: each check refuses an ill-formed term, and admits the ends of its range -/

theorem test_wf_nop1C_refuses_above : (Instr.nop1C 0x20).wf = false := by decide
theorem test_wf_nop1C_refuses_below : (Instr.nop1C 0x1B).wf = false := by decide
theorem test_wf_nop20_refuses_above : (Instr.nop20 0x40).wf = false := by decide
theorem test_wf_nop20_refuses_below : (Instr.nop20 0x1F).wf = false := by decide
theorem test_wf_nop40_refuses_above : (Instr.nop40 0x80).wf = false := by decide
theorem test_wf_nop40_refuses_below : (Instr.nop40 0x3F).wf = false := by decide
theorem test_wf_nop80_refuses_below : (Instr.nop80 0x7F).wf = false := by decide
theorem test_wf_range_ends : (Instr.nop1C 0x1C).wf && (Instr.nop1C 0x1F).wf && (Instr.nop20 0x20).wf &&
    (Instr.nop20 0x3F).wf && (Instr.nop40 0x40).wf && (Instr.nop40 0x7F).wf && (Instr.nop80 0x80).wf &&
    (Instr.nop80 0xFF).wf = true := by decide

/-! ## Decoding: one word per constructor, written out from 30_encoding.md R81 to R83 (most stand in 95_test_vectors.md) -/

theorem test_decode_add : decode 0x01123000 = .add 1 2 3 := by decide
theorem test_decode_add_unused_bits : decode 0x01123FFF = .add 1 2 3 := by decide
theorem test_decode_add_all_max : decode 0x01FFF000 = .add 15 15 15 := by decide
theorem test_decode_sub : decode 0x02123000 = .sub 1 2 3 := by decide
theorem test_decode_mul : decode 0x03345000 = .mul 3 4 5 := by decide
theorem test_decode_div : decode 0x04127000 = .div 1 2 7 := by decide
theorem test_decode_mod : decode 0x05128000 = .mod 1 2 8 := by decide
theorem test_decode_and : decode 0x06139000 = .and 1 3 9 := by decide
theorem test_decode_or : decode 0x0734A000 = .or 3 4 10 := by decide
theorem test_decode_not : decode 0x08103000 = .not 1 3 := by decide
theorem test_decode_not_ignores_b : decode 0x081F3000 = .not 1 3 := by decide
theorem test_decode_xor : decode 0x09156000 = .xor 1 5 6 := by decide
theorem test_decode_shl : decode 0x0A124000 = .shl 1 2 4 := by decide
theorem test_decode_shr : decode 0x0B123000 = .shr 1 2 3 := by decide
theorem test_decode_jmp : decode 0x0C600000 = .jmp 6 := by decide
theorem test_decode_cmp : decode 0x0D120000 = .cmp 1 2 := by decide
theorem test_decode_jgt : decode 0x0E400000 = .jgt 4 := by decide
theorem test_decode_jge : decode 0x0F400000 = .jge 4 := by decide
theorem test_decode_jlt : decode 0x10400000 = .jlt 4 := by decide
theorem test_decode_jle : decode 0x11400000 = .jle 4 := by decide
theorem test_decode_jeq : decode 0x12400000 = .jeq 4 := by decide
theorem test_decode_jne : decode 0x13400000 = .jne 4 := by decide
theorem test_decode_loadimm : decode 0x141ABCDF = .loadimm 1 0xABCD 0xF := by decide
theorem test_decode_mov : decode 0x1570B000 = .mov 7 11 := by decide
theorem test_decode_load : decode 0x16401010 = .load 4 0x0101 := by decide
theorem test_decode_store : decode 0x17502010 = .store 5 0x0201 := by decide
theorem test_decode_loadr : decode 0x18103000 = .loadr 1 3 := by decide
theorem test_decode_storer : decode 0x19250000 = .storer 2 5 := by decide
theorem test_decode_in_ignores_a_b : decode 0x1AFF2FFF = .inp 2 := by decide
theorem test_decode_out : decode 0x1B300000 = .out 3 := by decide
theorem test_decode_nop00 : decode 0x00ABCDEF = .nop00 := by decide
theorem test_decode_nop1C : decode 0x1C000000 = .nop1C 0x1C := by decide
theorem test_decode_nop1F : decode 0x1F123456 = .nop1C 0x1F := by decide
theorem test_decode_nop20 : decode 0x20000000 = .nop20 0x20 := by decide
theorem test_decode_nop40 : decode 0x7F000000 = .nop40 0x7F := by decide
theorem test_decode_nop80 : decode 0x80123456 = .nop80 0x80 := by decide
theorem test_decode_nopFF : decode 0xFFFFFFFF = .nop80 0xFF := by decide
theorem test_encode_loadimm : encode (.loadimm 1 0x00FF 0x0) = 0x14100FF0 := by decide
theorem test_encode_storer : encode (.storer 2 5) = 0x19250000 := by decide
theorem test_decodeTableWord : decodeTableWord 32 0x1A002000 = some (.inp 2) := by decide

/-! ## One instruction on a small state (95_test_vectors.md, section 2) -/

/-- The reset state with flags of known value and some registers set. -/
def withRegs (l : List (RegIdx × Word)) : State :=
  l.foldl (fun s p => s.setReg p.1 p.2) { State.reset with cmpA := 0, cmpB := 0 }

/-- Register `d` after an instruction. -/
def regAfter (i : Instr) (s : State) (d : RegIdx) : Option Word :=
  match exec i s with
  | .next t => some (t.reg d)
  | _ => none

/-- `pc` after a jump through `x[4]`, from `pc = 0x0011` and the given flags. -/
def pcAfter (i : Instr) (target a b : Word) : Option Addr :=
  match exec i (((withRegs [(4, target)]).latchFlags a b).setPc 0x0011) with
  | .next t => some t.pc
  | _ => none

/-- The queue, the Address latch and the MemOut latch after an instruction. -/
def busAfter (i : Instr) (s : State) : Option (List Task × Option PortAddr × MemLatch) :=
  match exec i s with
  | .next t => some (t.queue, t.address, t.memOut)
  | _ => none

theorem test_add_overflow_wraps : regAfter (.add 1 2 3) (withRegs [(1, 0x7FFFFFFF), (2, 1)]) 3 = some 0x80000000 := by decide
theorem test_add_same_register : regAfter (.add 1 1 1) (withRegs [(1, 0x80000000)]) 1 = some 0 := by decide
theorem test_sub_borrow_wraps : regAfter (.sub 1 2 3) (withRegs [(1, 0), (2, 1)]) 3 = some 0xFFFFFFFF := by decide
theorem test_sub_minuend_is_a : regAfter (.sub 1 2 3) (withRegs [(1, 0x80000000), (2, 1)]) 3 = some 0x7FFFFFFF := by decide
theorem test_mul_high_half_lost : regAfter (.mul 1 2 3) (withRegs [(1, 0x00012345), (2, 0x00010000)]) 3 = some 0x23450000 := by decide
theorem test_mul_negative : regAfter (.mul 1 2 3) (withRegs [(1, 0xFFFFFFFE), (2, 3)]) 3 = some 0xFFFFFFFA := by decide
theorem test_div_truncates : regAfter (.div 1 2 3) (withRegs [(1, 0xFFFFFFF9), (2, 2)]) 3 = some 0xFFFFFFFD := by decide
theorem test_div_overflow_case : regAfter (.div 1 2 3) (withRegs [(1, 0x80000000), (2, 0xFFFFFFFF)]) 3 = some 0x80000000 := by decide
theorem test_mod_sign_of_dividend : regAfter (.mod 1 2 3) (withRegs [(1, 0xFFFFFFF9), (2, 2)]) 3 = some 0xFFFFFFFF := by decide
theorem test_mod_negative_divisor : regAfter (.mod 1 2 3) (withRegs [(1, 7), (2, 0xFFFFFFFE)]) 3 = some 1 := by decide
theorem test_and : regAfter (.and 1 2 3) (withRegs [(1, 0xF0F0F0F0), (2, 0x0FF00FF0)]) 3 = some 0x00F000F0 := by decide
theorem test_or : regAfter (.or 1 2 3) (withRegs [(1, 0xF0F0F0F0), (2, 0x0FF00FF0)]) 3 = some 0xFFF0FFF0 := by decide
theorem test_xor : regAfter (.xor 1 2 3) (withRegs [(1, 0xF0F0F0F0), (2, 0x0FF00FF0)]) 3 = some 0xFF00FF00 := by decide
theorem test_not : regAfter (.not 1 3) (withRegs [(1, 0xDEADBEEF)]) 3 = some 0x21524110 := by decide
theorem test_shl_count_33_acts_as_1 : regAfter (.shl 1 2 3) (withRegs [(1, 0x12345678), (2, 0x21)]) 3 = some 0x2468ACF0 := by decide
theorem test_shl_count_31 : regAfter (.shl 1 2 3) (withRegs [(1, 1), (2, 0x1F)]) 3 = some 0x80000000 := by decide
theorem test_shr_logical : regAfter (.shr 1 2 3) (withRegs [(1, 0xFFFFFFFF), (2, 4)]) 3 = some 0x0FFFFFFF := by decide
theorem test_shr_count_32_acts_as_0 : regAfter (.shr 1 2 3) (withRegs [(1, 0x80000000), (2, 0x20)]) 3 = some 0x80000000 := by decide
theorem test_loadimm_low_merges : regAfter (.loadimm 1 0x00FF 0x0) (withRegs [(1, 0xABCD1234)]) 1 = some 0xABCD12FF := by decide
theorem test_loadimm_high_marker : regAfter (.loadimm 1 0xABCD 0xF) (withRegs [(1, 0x00001234)]) 1 = some 0xABCD1234 := by decide
theorem test_mov_overwrites : regAfter (.mov 1 3) (withRegs [(1, 0xCAFEF00D), (3, 0xFFFFFFFF)]) 3 = some 0xCAFEF00D := by decide

/-- IN takes the Stdin of the executing evaluation. -/
theorem test_in : regAfter (.inp 2) { withRegs [(2, 0x55)] with
    input := { clock := true, reset := false, memory := none, stdin := some 0x0C } } 2 = some 0x0C := by decide

/-- OUT drives Stdout. -/
theorem test_out : (match exec (.out 3) (withRegs [(3, 0x0F)]) with | .next t => t.stdout | _ => none) = some 0x0F := by
  decide

/-- DIV by zero sets the fault latch and does not write the destination. -/
theorem test_div_by_zero : (match exec (.div 1 2 3) (withRegs [(1, 7), (3, 0x99)]) with
    | .next t => some (t.fault, t.reg 3) | _ => none) = some (some .divideByZero, 0x99) := by decide

/-- MOD of 0 by 0 faults too. -/
theorem test_mod_by_zero : (match exec (.mod 1 2 3) (withRegs [(3, 0x99)]) with
    | .next t => some (t.fault, t.reg 3) | _ => none) = some (some .divideByZero, 0x99) := by decide

/-- CMP latches both operand values. -/
theorem test_cmp : (match exec (.cmp 1 2) (withRegs [(1, 5), (2, 7)]) with
    | .next t => some (t.cmpA, t.cmpB) | _ => none) = some (5, 7) := by decide

theorem test_jmp : pcAfter (.jmp 4) 0x10 0 0 = some 0x0010 := by decide
theorem test_jmp_clamps : pcAfter (.jmp 4) 0x00010000 0 0 = some 0xFFFF := by decide
theorem test_jgt_signed : pcAfter (.jgt 4) 0x20 1 0xFFFFFFFF = some 0x0020 := by decide
theorem test_jgt_equal_not_taken : pcAfter (.jgt 4) 0x20 5 5 = some 0x0011 := by decide
theorem test_jge_equal : pcAfter (.jge 4) 0x20 5 5 = some 0x0020 := by decide
theorem test_jge_signed : pcAfter (.jge 4) 0x20 0xFFFFFFFF 0 = some 0x0011 := by decide
theorem test_jlt_signed : pcAfter (.jlt 4) 0x20 0xFFFFFFFF 0 = some 0x0020 := by decide
theorem test_jlt_equal_not_taken : pcAfter (.jlt 4) 0x20 5 5 = some 0x0011 := by decide
theorem test_jle_equal : pcAfter (.jle 4) 0x20 5 5 = some 0x0020 := by decide
theorem test_jle_signed : pcAfter (.jle 4) 0x20 0x7FFFFFFF 0x80000000 = some 0x0011 := by decide
theorem test_jeq_all_bits : pcAfter (.jeq 4) 0x20 0 0x80000000 = some 0x0011 := by decide
theorem test_jeq : pcAfter (.jeq 4) 0x20 0xDEADBEEF 0xDEADBEEF = some 0x0020 := by decide
theorem test_jne : pcAfter (.jne 4) 0x20 1 0 = some 0x0020 := by decide
theorem test_jne_equal_not_taken : pcAfter (.jne 4) 0x20 5 5 = some 0x0011 := by decide

/-- LOAD requests the word and owes the register. -/
theorem test_load : busAfter (.load 1 0x0100) (withRegs [(1, 0x55)]) =
    some ([.setRegister 1], some 0x10100, .released) := by decide

/-- LOADR ignores bits 31 to 16 of the address register. -/
theorem test_loadr : busAfter (.loadr 1 3) (withRegs [(1, 0x00010100)]) =
    some ([.setRegister 3], some 0x10100, .released) := by decide

/-- STORE touches no port and owes a write. -/
theorem test_store : busAfter (.store 15 0xFFFF) (withRegs [(15, 0x80000001)]) =
    some ([.write 0xFFFF 0x80000001], none, .undriven) := by decide

/-- STORER ignores bits 31 to 16 of the address register. -/
theorem test_storer : busAfter (.storer 1 2) (withRegs [(1, 0xFFFF0200), (2, 1)]) =
    some ([.write 0x0200 1], none, .undriven) := by decide

/-! ## One evaluation (95_test_vectors.md, section 3) -/

/-- V-EDGE-1, its first evaluation, as the first step from reset: a fetch issue of address 0. -/
theorem test_first_step : (match step State.reset with
    | .next t => some (t.address, t.memOut, t.pc, t.queue, t.clkPrev) | _ => none) =
    some (some 0x10000, .released, 1, [.fetch], true) := by decide

/-- S3: at 65535 the fetch drives 0x1FFFF and `pc` stays. -/
theorem test_fetch_saturates : (match step (State.reset.setPc 0xFFFF) with
    | .next t => some (t.address, t.pc) | _ => none) = some (some 0x1FFFF, 0xFFFF) := by decide

/-- V-RST-4, its third evaluation: the clear, then LOADIMM on the cleared register. -/
theorem test_reset_on_edge : (match eval ((withRegs [(3, 9)]).enqueue .fetch)
      { clock := true, reset := true, memory := some 0x14300070, stdin := none } with
    | .next t => some (t.reg 3, t.pc, t.queue) | _ => none) = some (7, 0, []) := by decide

/-- The WRITE edge of P2 (section 4, edge 15). -/
theorem test_write_task : (match eval ((withRegs []).enqueue (.write 0x0200 0x2A))
      { clock := true, reset := false, memory := none, stdin := none } with
    | .next t => some (t.address, t.memOut, t.mem.read 0x0200, t.queue) | _ => none) =
    some (some 0x00200, .drive 0x2A, some 0x2A, []) := by decide

/-- The first step after loading a word runs it: LOADIMM r1, 0x1234, L. -/
theorem test_withFetchWord : (match step (State.reset.withFetchWord 32 0x14112340) with
    | .next t => some (t.reg 1, t.pc, t.queue) | _ => none) = some (0x1234, 1, []) := by decide

/-! ## Witnesses: a state and operands that meet the hypotheses of each statement that has any -/

/-- Inputs of a rising edge with Reset low. -/
def edgeIn (memory stdin : Option Word) : Inputs := { clock := true, reset := false, memory := memory, stdin := stdin }

/-- Inputs of an evaluation with Clock low. -/
def lowIn (reset : Bool) : Inputs := { clock := false, reset := reset, memory := none, stdin := none }

/-- A state with one queued task whose read request is on the latches. -/
def pending (t : Task) : State := ((withRegs [(1, 7)]).requestRead 0x0100).enqueue t

/-- A state that has faulted. -/
def faulted : State := (withRegs []).raiseDivideByZero

theorem pending_healthy (t : Task) : (pending t).Healthy := rfl

theorem witness_DecodeEncodeRoundTrip : (Instr.nop1C 0x1C).wf = true ∧ (Instr.nop1C 0x1F).wf = true ∧
    (Instr.nop20 0x20).wf = true ∧ (Instr.nop20 0x3F).wf = true ∧ (Instr.nop40 0x40).wf = true ∧
    (Instr.nop40 0x7F).wf = true ∧ (Instr.nop80 0x80).wf = true ∧ (Instr.nop80 0xFF).wf = true ∧
    (Instr.add 15 0 15).wf = true ∧ (Instr.loadimm 15 0xFFFF 0xF).wf = true := by decide

theorem witness_DecodeIgnoresUnusedBits : opcodeOf 0x01123000 = opcodeOf 0x01123FFF ∧
    (0x01123000 : Word) &&& usedBits (opcodeOf 0x01123000) = 0x01123FFF &&& usedBits (opcodeOf 0x01123000) ∧
    (0x01123000 : Word) ≠ 0x01123FFF := by decide

theorem witness_UnrecognisedOpcodesAreNoOps : (withRegs []).Idle ∧
    ((opcodeOf 0x00FFFFFF).toNat = 0 ∧ (opcodeOf 0x1C000000).toNat = 0x1C ∧ (opcodeOf 0xFFFFFFFF).toNat = 0xFF) ∧
    (edgeIn none none).clock = true ∧ (edgeIn none none).reset = false ∧ (lowIn false).clock = false ∧
    (lowIn false).reset = false ∧ (edgeIn (some 0xFFFFFFFF) none).memory = some 0xFFFFFFFF :=
  ⟨⟨rfl, rfl, rfl⟩, by decide, rfl, rfl, rfl, rfl, rfl⟩

/-- Reset asserted and Reset low, both without a rising edge; and Clock high twice in a row. -/
theorem witness_EvaluationWithoutEdgeOnlyClearsAndLatches : (pending .fetch).Healthy ∧
    ¬ (pending .fetch).RisesOn (lowIn true) ∧ (lowIn true).reset = true ∧
    ¬ (pending .fetch).RisesOn (lowIn false) ∧ (lowIn false).reset = false ∧
    ¬ State.RisesOn { pending .fetch with clkPrev := true } (edgeIn none none) := by
  refine ⟨rfl, ?_, rfl, ?_, rfl, ?_⟩ <;> simp [State.RisesOn, lowIn]

theorem witness_EdgeIsLowThenHighAndEveryEvaluationLatches : (withRegs []).Healthy ∧ (withRegs []).queue = [] ∧
    (edgeIn none none).reset = false ∧ (edgeIn none none).clock = true ∧
    ∃ t, eval (withRegs []) (edgeIn none none) = .next t := ⟨rfl, rfl, rfl, rfl, _, rfl⟩

/-- The ends of the pc range: 0, 65534 and 65535. -/
theorem witness_FetchIssueRequestsWordAtPc : ∀ p ∈ [(0 : Addr), 0xFFFE, 0xFFFF],
    ((withRegs []).setPc p).Healthy ∧ ((withRegs []).setPc p).RisesOn (edgeIn none none) ∧
    (edgeIn none none).reset = false ∧ ((withRegs []).setPc p).queue = [] :=
  fun _ _ => ⟨rfl, ⟨rfl, rfl⟩, rfl, rfl⟩

/-- An empty queue, and each kind of head task. -/
theorem witness_RisingEdgeIssuesOrRunsOneTask : (withRegs []).Healthy ∧ (withRegs []).RisesOn (edgeIn none none) ∧
    (edgeIn none none).reset = false ∧ (withRegs []).queue = [] ∧
    ∀ k ∈ [Task.fetch, .write 0xFFFF 2, .setRegister 15], (pending k).Healthy ∧
      (pending k).RisesOn (edgeIn none none) ∧ (pending k).queue = k :: [] :=
  ⟨rfl, ⟨rfl, rfl⟩, rfl, rfl, fun _ _ => ⟨rfl, ⟨rfl, rfl⟩, rfl⟩⟩

/-- Both clauses: a word that the reference memory answers, and a line that carries no known value. -/
theorem witness_StepRunsDecodedInstruction :
    ((pending .fetch).storeWord 0x0100 0x01123000).Healthy ∧
    ((pending .fetch).storeWord 0x0100 0x01123000).RisesOn ((pending .fetch).storeWord 0x0100 0x01123000).nextInputs ∧
    ((pending .fetch).storeWord 0x0100 0x01123000).queue = .fetch :: [] ∧
    ((pending .fetch).storeWord 0x0100 0x01123000).nextInputs.memory = some 0x01123000 ∧
    ((withRegs []).enqueue .fetch).Healthy ∧
    ((withRegs []).enqueue .fetch).RisesOn ((withRegs []).enqueue .fetch).nextInputs ∧
    ((withRegs []).enqueue .fetch).queue = .fetch :: [] ∧ ((withRegs []).enqueue .fetch).nextInputs.memory = none :=
  ⟨rfl, ⟨rfl, rfl⟩, rfl, rfl, rfl, ⟨rfl, rfl⟩, rfl, rfl⟩

theorem witness_WriteTaskDrivesAddressAndValue : ∀ a ∈ [(0 : Addr), 0xFFFF],
    (pending (.write a 0x2A)).Healthy ∧ (pending (.write a 0x2A)).RisesOn (edgeIn none none) ∧
    (edgeIn none none).reset = false ∧ (pending (.write a 0x2A)).queue = .write a 0x2A :: [] :=
  fun _ _ => ⟨rfl, ⟨rfl, rfl⟩, rfl, rfl⟩

/-- Both clauses: a pending SET_REGISTER of the first and the last register, and a LOAD from an empty queue. -/
theorem witness_SetRegisterTaskCompletesLoad : (∀ r ∈ [(0 : RegIdx), 15],
    (pending (.setRegister r)).Healthy ∧ (pending (.setRegister r)).RisesOn (edgeIn (some 0x2A) none) ∧
    (edgeIn (some 0x2A) none).reset = false ∧ (edgeIn (some 0x2A) none).memory = some 0x2A ∧
    (pending (.setRegister r)).queue = .setRegister r :: []) ∧
    (withRegs []).latchClock.Healthy ∧ (withRegs []).latchClock.queue = [] ∧
    (lowIn false).clock = false ∧ (lowIn false).reset = false ∧ (edgeIn (some 0x2A) none).clock = true :=
  ⟨fun _ _ => ⟨rfl, ⟨rfl, rfl⟩, rfl, rfl, rfl⟩, rfl, rfl, rfl, rfl, rfl⟩

/-- A LOAD executed on an edge, a low level, and the edge that completes it (95_test_vectors.md S5). -/
theorem test_load_completes : (match eval (pending .fetch) (edgeIn (some 0x16201000) none) with
    | .next t => match eval t (lowIn false) with
      | .next u => match eval u (edgeIn (some 0x2A) none) with
        | .next x => some (t.queue, t.address, x.reg 2, x.queue) | _ => none
      | _ => none
    | _ => none) = some ([.setRegister 2], some 0x10100, 0x2A, []) := by decide

theorem witness_UnknownLoadDataIsADraw : (pending (.setRegister 2)).Healthy ∧
    (pending (.setRegister 2)).RisesOn (edgeIn none none) ∧ (edgeIn none none).reset = false ∧
    (edgeIn none none).memory = none ∧ (pending (.setRegister 2)).queue = .setRegister 2 :: [] :=
  ⟨rfl, ⟨rfl, rfl⟩, rfl, rfl, rfl⟩

/-- Inputs of a rising edge with Reset asserted. -/
def resetEdge (memory : Option Word) : Inputs := { clock := true, reset := true, memory := memory, stdin := none }

theorem witness_ResetClearsThenTheEvaluationGoesOn : (pending .fetch).Healthy ∧ (resetEdge none).reset = true ∧
    (lowIn true).reset = true := ⟨rfl, rfl, rfl⟩

/-- Each of the three clauses: a pending load, a pending write, a pending fetch. -/
theorem witness_PendingTaskSurvivesReset : (lowIn true).clock = false ∧ (lowIn true).reset = true ∧
    (edgeIn (some 0x2A) none).clock = true ∧ (edgeIn (some 0x2A) none).reset = false ∧
    (edgeIn (some 0x2A) none).memory = some 0x2A ∧ (pending (.setRegister 2)).Healthy ∧
    (pending (.setRegister 2)).queue = [.setRegister 2] ∧ (pending (.write 0xFFFF 9)).Healthy ∧
    (pending (.write 0xFFFF 9)).queue = [.write 0xFFFF 9] ∧ (pending .fetch).Healthy ∧
    (pending .fetch).queue = [.fetch] := ⟨rfl, rfl, rfl, rfl, rfl, rfl, rfl, rfl, rfl, rfl, rfl⟩

/-- Each clause: a STORE, STORER, OUT, CMP, LOAD, DIV and MOD word. -/
theorem witness_ResetHeldAcrossEdgeExecutesOnZeros : (pending .fetch).Healthy ∧
    (∀ w, (pending .fetch).RisesOn (resetEdge (some w)) ∧ (resetEdge (some w)).reset = true ∧
      (resetEdge (some w)).memory = some w) ∧ (pending .fetch).queue = [.fetch] ∧
    decode 0x17101000 = .store 1 0x0100 ∧ decode 0x19120000 = .storer 1 2 ∧ decode 0x1B300000 = .out 3 ∧
    decode 0x0D120000 = .cmp 1 2 ∧ decode 0x16101000 = .load 1 0x0100 ∧ decode 0x04123000 = .div 1 2 3 ∧
    decode 0x05123000 = .mod 1 2 3 :=
  ⟨rfl, fun _ => ⟨⟨rfl, rfl⟩, rfl, rfl⟩, rfl, by decide, by decide, by decide, by decide, by decide, by decide, by decide⟩

theorem witness_FaultIsAbsorbing : ¬ faulted.Healthy := by unfold State.Healthy; decide

/-- The faulting situation itself, and a core that does not fault. -/
theorem witness_OnlyDivAndModByZeroFault : (pending .fetch).Healthy ∧
    (pending .fetch).RisesOn (edgeIn (some 0x04123000) none) ∧ (pending .fetch).queue = .fetch :: [] ∧
    (pending .fetch).regSeen (edgeIn (some 0x04123000) none) 2 = 0 ∧ (withRegs []).Healthy :=
  ⟨rfl, ⟨rfl, rfl⟩, rfl, rfl, rfl⟩

theorem witness_DivAndModByZeroSetOnlyTheFaultLatch : (withRegs [(1, 7), (3, 0x99)]).reg 2 = 0 := by decide

/-- The invariant holds of a state with a pending read, and the step from it answers a next state. -/
theorem witness_EveryStepKeepsTheInvariant : (pending (.setRegister 2)).Inv ∧
    ∃ t, step (pending (.setRegister 2)) = .next t := by
  refine ⟨⟨by decide, ?_, rfl⟩, _, rfl⟩
  intro t ht _
  exact ⟨⟨0x0100, rfl⟩, rfl⟩

theorem witness_SampledReadsAreAnsweredByMemory : (pending .fetch).Inv ∧
    (pending .fetch).nextStimulus.memory = .answer ∧ Task.fetch ∈ (pending .fetch).queue ∧
    Task.fetch.samples = true := by
  refine ⟨⟨by decide, ?_, rfl⟩, rfl, by decide, rfl⟩
  intro t ht _
  exact ⟨⟨0x0100, rfl⟩, rfl⟩

/-- A non-zero divisor and operands whose signed division is exact: an ordinary pair, and the overflow case. -/
theorem witness_ArithmeticFamilyWritesOnlyItsDestination : ((withRegs [(1, 0xFFFFFFFA), (2, 3)]).reg 2 ≠ 0 ∧
    ((withRegs [(1, 0xFFFFFFFA), (2, 3)]).reg 1).toInt = ((withRegs [(1, 0xFFFFFFFA), (2, 3)]).reg 2).toInt * (-2)) ∧
    (withRegs [(1, 0x80000000), (2, 0xFFFFFFFF)]).reg 2 ≠ 0 ∧
    ((withRegs [(1, 0x80000000), (2, 0xFFFFFFFF)]).reg 1).toInt =
      ((withRegs [(1, 0x80000000), (2, 0xFFFFFFFF)]).reg 2).toInt * 0x80000000 := by
  decide

/-- The overflow case, and each sign of the dividend otherwise. -/
theorem witness_DivTruncatesAndModHasDividendSign :
    ((withRegs [(1, 0x80000000), (2, 0xFFFFFFFF)]).reg 2 ≠ 0 ∧
      (withRegs [(1, 0x80000000), (2, 0xFFFFFFFF)]).reg 1 = 0x80000000 ∧
      (withRegs [(1, 0x80000000), (2, 0xFFFFFFFF)]).reg 2 = 0xFFFFFFFF) ∧
    ((withRegs [(1, 0x80000000), (2, 1)]).reg 2 ≠ 0 ∧ ((withRegs [(1, 0x80000000), (2, 1)]).reg 1).toInt ≤ 0) ∧
    ((withRegs [(1, 0), (2, 5)]).reg 2 ≠ 0 ∧ 0 ≤ ((withRegs [(1, 0), (2, 5)]).reg 1).toInt) := by
  decide

/-- The ends of the count range in which the shift is stated bit by bit. -/
theorem witness_LogicFamilyWorksBitByBit : ((withRegs [(2, 0)]).reg 2).toNat < 32 ∧
    ((withRegs [(2, 31)]).reg 2).toNat < 32 := by decide

theorem witness_OnlyCmpChangesTheFlags : ∃ t, eval (pending .fetch) (edgeIn (some 0x0D120000) none) = .next t ∧
    t.cmpA = 7 := ⟨_, rfl, by decide⟩

theorem witness_OnlyConditionalJumpsReadTheFlags : isConditionalJump (.cmp 1 2) = false ∧
    isConditionalJump (.jmp 4) = false ∧ isConditionalJump .nop00 = false := by decide

/-- Each clause: no change, a fetch issue, a jump. -/
theorem witness_OnlyFetchJumpAndResetChangePc : (withRegs []).Healthy ∧
    (∃ t, eval (withRegs []) (lowIn true) = .next t ∧ t.pc = 0) ∧
    (∃ t, eval (withRegs []) (edgeIn none none) = .next t ∧ t.pc = 1) ∧
    (pending .fetch).Healthy ∧ ∃ t, eval (pending .fetch) (edgeIn (some 0x0C100000) none) = .next t ∧ t.pc = 7 :=
  ⟨rfl, ⟨_, rfl, by decide⟩, ⟨_, rfl, by decide⟩, rfl, _, rfl, by decide⟩

theorem witness_OnlyDestinationRegistersChange : (pending .fetch).Healthy ∧
    (∃ t, eval (pending .fetch) (edgeIn (some 0x15103000) none) = .next t ∧
      t.reg 3 ≠ (pending .fetch).regSeen (edgeIn (some 0x15103000) none) 3) ∧
    ∃ t, eval (pending (.setRegister 2)) (edgeIn (some 0x2A) none) = .next t ∧
      t.reg 2 ≠ (pending (.setRegister 2)).regSeen (edgeIn (some 0x2A) none) 2 :=
  ⟨rfl, ⟨_, rfl, by decide⟩, _, rfl, by decide⟩

theorem witness_OnlyTheWriteTaskChangesMemory : (pending (.write 0xFFFF 9)).Healthy ∧
    (pending (.write 0xFFFF 9)).RisesOn (edgeIn none none) ∧
    (pending (.write 0xFFFF 9)).queue = .write 0xFFFF 9 :: [] ∧
    ∃ t, eval (pending (.write 0xFFFF 9)) (edgeIn none none) = .next t := ⟨rfl, ⟨rfl, rfl⟩, rfl, _, rfl⟩

/-- Both clauses: a STORE at address 0 to address 1, and a STORER at 65534 to 65535. -/
theorem witness_StoreToNextAddressIsFetched :
    (decode (((withRegs []).storeWord 0 0x17100010).memWord ((withRegs []).storeWord 0 0x17100010).pc) = .store 1 1 ∧
      (1 : Addr) = satinc16 ((withRegs []).storeWord 0 0x17100010).pc) ∧
    (decode ((((withRegs [(1, 0x1FFFF)]).setPc 0xFFFE).storeWord 0xFFFE 0x19120000).memWord 0xFFFE) = .storer 1 2 ∧
      ((withRegs [(1, 0x1FFFF)]).reg 1).toNat % 65536 = (satinc16 0xFFFE).toNat) :=
  ⟨⟨by decide, by decide⟩, by decide, by decide⟩

/-- An idle core whose next word is a LOAD, with three cycles of the reference environment to come. -/
theorem witness_EvaluationsRefineInstructionStep :
    State.Idle { (withRegs []).storeWord 0 0x16101000 with stimuli := Stimulus.cycles (some 0x0C) 3 } ∧
    Stimulus.cycles (some 0x0C) 3 =
      Stimulus.cycles (some 0x0C) (edgesOf (decode (((withRegs []).storeWord 0 0x16101000).memWord 0))) ++ [] :=
  ⟨⟨rfl, rfl, rfl⟩, by decide⟩

/-- Both clauses: a known and an unknown Stdin. -/
theorem witness_InTakesStdinOrADraw : ((withRegs []).present (edgeIn none (some 0x0C))).input.stdin = some 0x0C ∧
    (withRegs []).input.stdin = none := ⟨rfl, rfl⟩

/-- Each way: OUT, a fetch issue, LOAD, LOADR (register 1 holds 7), a WRITE task. -/
theorem witness_LatchesChangeOnlyByTheirAssertions :
    (∃ t, eval (pending .fetch) (edgeIn (some 0x1B100000) none) = .next t ∧ t.stdout = some 7) ∧
    (∃ t, eval (withRegs []) (edgeIn none none) = .next t ∧ t.address = some 0x10000) ∧
    (∃ t, eval (pending .fetch) (edgeIn (some 0x16FFFFF0) none) = .next t ∧ t.address = some 0x1FFFF) ∧
    (∃ t, eval (pending .fetch) (edgeIn (some 0x18103000) none) = .next t ∧ t.address = some 0x10007) ∧
    ∃ t, eval (pending (.write 0xFFFF 9)) (edgeIn none none) = .next t ∧ t.address = some 0x0FFFF :=
  ⟨⟨_, rfl, by decide⟩, ⟨_, rfl, by decide⟩, ⟨_, rfl, by decide⟩, ⟨_, rfl, by decide⟩, _, rfl, by decide⟩

/-- The state whose next evaluation executes the self-jump at address 9 (program P1's `halt`). -/
def ending : State :=
  { (((withRegs [(5, 9)]).storeWord 9 0x0C500000).requestRead 9).enqueue .fetch with
    pc := 10
    stimuli := [Stimulus.rise none, Stimulus.fall none, Stimulus.rise none, Stimulus.fall none, Stimulus.rise none] }

theorem ending_executes : ending.ExecutesSelfJump 9 :=
  ⟨rfl, ⟨rfl, rfl⟩, rfl, rfl, rfl, 5, by decide, by decide⟩

theorem witness_RunEndsOnceInTheSelfJumpState : ∃ t, ending.RunEnded 1 9 t :=
  ⟨_, 0, ending, rfl, rfl, ending_executes, rfl, fun _ h => absurd h (Nat.not_lt_zero _)⟩

theorem witness_EndOfRunRepeatsEveryTwoEdges : ending.ExecutesSelfJump 9 ∧
    ending.stimuli = Stimulus.rise none :: Stimulus.fall none :: Stimulus.rise none :: Stimulus.fall none ::
      Stimulus.rise none :: [] := ⟨ending_executes, rfl⟩

end Sys2Proof.Tests
end

section
/-! PROOF. The evaluation (40_cycle.md R110 to R118): what `eval` answers in each of its situations, said once as the
state it gives, and from these the statements about the clock edge, the fetch issue and the tasks. -/

namespace Sys2Proof.Machine

/-! ## The answer of `eval` in each situation -/

/-- On a rising edge with Reset low, step 1 does nothing and the edge acts with the new level latched (R112, R114). -/
theorem eval_edge {s : State} {i : Inputs} (hf : s.Healthy) (hr : s.RisesOn i) (hreset : i.reset = false) :
    eval s i = (s.present i).latchClock.risingEdge := by
  have hrise : (s.present i).rising = true := (s.rising_present i).mpr hr
  have hclear : (s.present i).applyReset = s.present i := applyReset_low hreset
  rw [eval, evaluate_rising (s := s.present i) hf hrise, hclear]

/-- Without a rising edge an evaluation is step 1 and the clock latch (R113). -/
theorem eval_no_edge {s : State} {i : Inputs} (hf : s.Healthy) (hr : ¬ s.RisesOn i) :
    eval s i = .next (s.present i).applyReset.latchClock := by
  have hrise : (s.present i).rising = false := by
    rw [← Bool.not_eq_true, s.rising_present i]
    exact hr
  exact evaluate_not_rising (s := s.present i) hf hrise

/-- Without a rising edge and with Reset low only the clock latch is left (R113). -/
theorem eval_no_edge_reset_low {s : State} {i : Inputs} (hf : s.Healthy) (hr : ¬ s.RisesOn i)
    (hreset : i.reset = false) : eval s i = .next (s.present i).latchClock := by
  have hclear : (s.present i).applyReset = s.present i := applyReset_low hreset
  rw [eval_no_edge hf hr, hclear]

/-- A rising edge with an empty queue is a fetch issue (R114). -/
theorem risingEdge_nil {s : State} (hq : s.queue = []) : s.risingEdge = .next s.fetchIssue := by
  rw [State.risingEdge, hq]

/-- A rising edge with a task queued takes the head off and performs it (R114). -/
theorem risingEdge_cons {s : State} {k : Task} {rest : List Task} (hq : s.queue = k :: rest) :
    s.risingEdge = (s.setQueue rest).runTask k := by
  rw [State.risingEdge, hq]

/-- An edge from an empty queue gives the state of the fetch issue (R115). -/
theorem eval_fetchIssue {s : State} {i : Inputs} (hf : s.Healthy) (hr : s.RisesOn i) (hreset : i.reset = false)
    (hq : s.queue = []) : eval s i = .next (s.present i).latchClock.fetchIssue := by
  have hqueue : (s.present i).latchClock.queue = [] := hq
  rw [eval_edge hf hr hreset, risingEdge_nil hqueue]

/-- An edge with a WRITE at the head gives the state of that task (R117). -/
theorem eval_write {s : State} {i : Inputs} {a : Addr} {v : Word} {rest : List Task} (hf : s.Healthy)
    (hr : s.RisesOn i) (hreset : i.reset = false) (hq : s.queue = .write a v :: rest) :
    eval s i = .next (((s.present i).latchClock.setQueue rest).runWrite a v) := by
  have hqueue : (s.present i).latchClock.queue = .write a v :: rest := hq
  rw [eval_edge hf hr hreset, risingEdge_cons hqueue, State.runTask]

/-- An edge with a SET_REGISTER at the head and a known word on Memory puts that word into the register (R118). -/
theorem eval_setRegister_known {s : State} {i : Inputs} {r : RegIdx} {v : Word} {rest : List Task} (hf : s.Healthy)
    (hr : s.RisesOn i) (hreset : i.reset = false) (hmem : i.memory = some v)
    (hq : s.queue = .setRegister r :: rest) :
    eval s i = .next (((s.present i).latchClock.setQueue rest).setReg r v) := by
  have hqueue : (s.present i).latchClock.queue = .setRegister r :: rest := hq
  rw [eval_edge hf hr hreset, risingEdge_cons hqueue, State.runTask, State.runSetRegister_eq]
  simp only [State.setQueue_input, State.latchClock_input, State.present_input, hmem, State.countSample_some,
    State.sampled_some]

/-- Writing register `r` of a state whose registers read as those of `s` is what `RegBecomes` says. -/
theorem State.regBecomes_setReg {s t : State} (h : s.SameRegs t) (r : RegIdx) (v : Word) :
    s.RegBecomes (t.setReg r v) r v := by
  refine ⟨by simp, fun j hj => ?_⟩
  rw [State.reg_setReg, if_neg hj, h j]

/-- LOAD on the edge that executes it (45_memory_access.md R191). -/
theorem exec_load_eq (r : RegIdx) (imm : Addr) (s : State) : exec (.load r imm) s = .next (s.startLoad imm r) := rfl

/-- The first half of a load changes no register. -/
@[simp] theorem State.reg_startLoad (s : State) (a : Addr) (r j : RegIdx) : (s.startLoad a r).reg j = s.reg j := rfl

/-! ## The last-seen Clock level (R112) -/

/-- No instruction touches the last-seen Clock level. -/
theorem exec_clkPrev {i : Instr} {s t : State} (h : exec i s = .next t) : t.clkPrev = s.clkPrev := by
  obtain ⟨_, _, rfl⟩ | ⟨_, _, rfl⟩ | ⟨_, _, rfl⟩ | ⟨_, _, _, rfl⟩ | ⟨_, _, rfl, _⟩ | ⟨_, _, rfl⟩ | ⟨_, _, rfl⟩ |
    ⟨rfl, _⟩ | rfl := exec_cases h <;> rfl

/-- What a rising edge performs does not touch the last-seen Clock level. -/
theorem risingEdge_clkPrev {s t : State} (h : s.risingEdge = .next t) : t.clkPrev = s.clkPrev := by
  obtain ⟨_, rfl⟩ | ⟨rest, _, hfetch⟩ | ⟨_, _, _, _, rfl⟩ | ⟨_, _, _, rfl⟩ := risingEdge_cases h
  · rfl
  · rw [State.runFetch] at hfetch
    simpa using exec_clkPrev hfetch
  · rfl
  · rfl

/-- Every evaluation of a core that has not faulted latches the Clock level, rising edge or not. -/
theorem eval_clkPrev {s t : State} {i : Inputs} (hf : s.Healthy) (h : eval s i = .next t) : t.clkPrev = i.clock := by
  obtain ⟨hfault, _⟩ | ⟨_, _, rfl⟩ | ⟨_, _, hedge⟩ := evaluate_cases h
  · exact absurd hf hfault
  · simp
  · simpa using risingEdge_clkPrev hedge

/-- With Clock already seen high, an evaluation with Clock high and Reset low leaves the core as it was, faulted or
not: the level it latches is the one latched before. -/
theorem eval_second_high {s : State} {i : Inputs} (hhigh : s.clkPrev = true) (hclock : i.clock = true)
    (hreset : i.reset = false) : eval s i = .next (s.present i) := by
  cases hfault : s.fault with
  | some f =>
    have hf : (s.present i).fault = some f := hfault
    rw [eval, evaluate_faulted hf]
  | none =>
    have hno : ¬ s.RisesOn i := fun hr => absurd (hhigh.symm.trans hr.1) (by decide)
    have hlatch : (s.present i).latchClock = s.present i := by
      simp only [State.latchClock, State.present, hclock, ← hhigh]
    rw [eval_no_edge_reset_low hfault hno hreset, hlatch]

/-! ## The statements -/

/-- Settles O8: an edge from an empty queue is a fetch issue and any other evaluation leaves the queue alone; the latch
is `eval_clkPrev`, and it makes the second high level no edge. -/
theorem edgeIsLowThenHighAndEveryEvaluationLatches :
    Obligations.EdgeIsLowThenHighAndEveryEvaluationLatches := by
  refine ⟨fun s i hf hq hreset => ?_, fun _ _ _ hf h => eval_clkPrev hf h,
    fun s t i j hf hclock h hj hreset => ?_⟩
  · by_cases hr : s.RisesOn i
    · refine ⟨_, eval_fetchIssue hf hr hreset hq, iff_of_true ?_ hr⟩
      simp [State.fetchIssue_eq, hq]
    · refine ⟨_, eval_no_edge_reset_low hf hr hreset, iff_of_false ?_ hr⟩
      simp [hq]
  · have hhigh : t.clkPrev = true := (eval_clkPrev hf h).trans hclock
    exact ⟨_, eval_second_high hhigh hj hreset, ⟨rfl, rfl, ⟨rfl, rfl⟩, rfl, ⟨rfl, rfl, rfl⟩, rfl, rfl⟩,
      ⟨State.memWord_congr rfl, rfl⟩, rfl⟩

/-- Settles O7: the state of `eval_no_edge`, read field by field. -/
theorem evaluationWithoutEdgeOnlyClearsAndLatches : Obligations.EvaluationWithoutEdgeOnlyClearsAndLatches := by
  intro s i hf hr
  have hfault : s.fault = none := hf
  refine ⟨_, eval_no_edge hf hr, fun hreset => ?cleared, fun hreset => ?kept, ?_⟩
  case cleared => simp [hreset]
  case kept => simp [State.SameRegs, hreset]
  simp [State.SameFlags, State.SamePorts, State.SameMemory, hfault]

/-- Settles O9: the state of the fetch issue; the port value and the advanced `pc` as numbers are `tagged_toNat` and
`satinc16_toNat`. -/
theorem fetchIssueRequestsWordAtPc : Obligations.FetchIssueRequestsWordAtPc := by
  intro s i hf hr hreset hq
  have hqueue : (s.present i).latchClock.fetchIssue.queue = [.fetch] := by simp [State.fetchIssue_eq, hq]
  exact ⟨_, tagged s.pc, eval_fetchIssue hf hr hreset hq, rfl, tagged_toNat s.pc, rfl, satinc16_toNat s.pc, hqueue,
    State.reg_congr rfl, ⟨rfl, rfl⟩, rfl, ⟨State.memWord_congr rfl, rfl⟩, hr.2, hf, rfl⟩

/-- Settles O13: the state of the WRITE task; the address on the port as a number is `untagged_toNat`. -/
theorem writeTaskDrivesAddressAndValue : Obligations.WriteTaskDrivesAddressAndValue := by
  intro s i a v rest hf hr hreset hq
  exact ⟨_, untagged a, eval_write hf hr hreset hq, rfl, untagged_toNat a, rfl, rfl, State.reg_congr rfl, rfl, ⟨rfl, rfl⟩,
    rfl, hr.2, hf, rfl⟩

/-- Settles O14: the state of the SET_REGISTER task; and for LOAD the three states one after the other, where the low
evaluation only latches the level and so makes the next one an edge. -/
theorem setRegisterTaskCompletesLoad : Obligations.SetRegisterTaskCompletesLoad := by
  refine ⟨fun s i r v rest hf hr hreset hmem hq => ?task, fun s r imm hf hq => ?load⟩
  case task =>
    exact ⟨_, eval_setRegister_known hf hr hreset hmem hq, State.regBecomes_setReg (State.reg_congr rfl) r v, rfl, rfl,
      ⟨rfl, rfl⟩, ⟨rfl, rfl, rfl⟩, ⟨State.memWord_congr rfl, rfl⟩, hr.2, hf, rfl⟩
  case load =>
    have hqueue : (s.startLoad imm r).queue = [.setRegister r] := by simp [State.startLoad_eq, hq]
    refine ⟨_, tagged imm, exec_load_eq r imm s, hqueue, rfl, tagged_toNat imm,
      fun low i v hlow hlowReset hclock hreset hmem => ?_⟩
    have hno : ¬ (s.startLoad imm r).RisesOn low := fun hr => absurd (hlow.symm.trans hr.2) (by decide)
    have hrise : ((s.startLoad imm r).present low).latchClock.RisesOn i := ⟨hlow, hclock⟩
    have hregs : s.SameRegs ((((s.startLoad imm r).present low).latchClock.present i).latchClock.setQueue []) := by
      simp [State.SameRegs]
    exact ⟨_, _, eval_no_edge_reset_low hf hno hlowReset, hqueue, State.reg_congr rfl,
      eval_setRegister_known hf hrise hreset hmem hqueue, State.regBecomes_setReg hregs r v, rfl⟩

end Sys2Proof.Machine
end

section
/-! PROOF. The arithmetic family (41_arithmetic.md R140 to R145): what an instruction that only writes one register
leaves unchanged, what a word with ADD's opcode decodes to, and from these the statement about ADD. -/

namespace Sys2Proof.Machine

/-- A register write is the whole effect of a register instruction: the destination takes the value, and no flag, task,
latch, memory word or field of the environment moves. -/
theorem State.onlyReg_setReg (s : State) (d : RegIdx) (v : Word) : s.OnlyReg (s.setReg d v) d v :=
  ⟨State.regBecomes_setReg (fun _ => rfl) d v, rfl, ⟨rfl, rfl⟩, rfl, ⟨rfl, rfl, rfl⟩,
    ⟨State.memWord_setReg s d v, rfl⟩, ⟨rfl, rfl⟩, rfl, rfl, rfl⟩

/-- ADD on the edge that executes it (R141): both sources are read before the destination is written. -/
theorem exec_add_eq (a b d : RegIdx) (s : State) :
    exec (.add a b d) s = .next (s.setReg d (s.reg a + s.reg b)) := rfl

/-- The opcode 0x01 alone makes a word an ADD; its operands are the three R-type fields (30_encoding.md R81, R83). -/
theorem decode_of_opcode_add {w : Word} (h : opcodeOf w = 0x01) :
    decode w = .add (fieldA w) (fieldB w) (fieldD w) := by
  simp [decode, h]

/-- The canonical word of ADD decodes to ADD with the same three registers (30_encoding.md R93). -/
theorem decode_encode_add (a b d : RegIdx) : decode (encode (.add a b d)) = .add a b d :=
  calc decode (encodeR 0x01 a b d)
      = .add (fieldA (encodeR 0x01 a b d)) (fieldB (encodeR 0x01 a b d)) (fieldD (encodeR 0x01 a b d)) :=
        decode_of_opcode_add (opcodeOf_encodeR 0x01 a b d)
    _ = .add a b d := by rw [fieldA_encodeR, fieldB_encodeR, fieldD_encodeR]

/-- Settles O26: the word is the R-type word of opcode 0x01, ADD is one register write, and the sum of two words is the
sum of their numbers without the carry out of bit 31. -/
theorem addWrapsModulo32Bits : Obligations.AddWrapsModulo32Bits := fun a b d =>
  ⟨encodeR_toNat 0x01 a b d, decode_encode_add a b d, fun s =>
    ⟨_, s.reg a + s.reg b, exec_add_eq a b d s, s.onlyReg_setReg d _, BitVec.toNat_add (s.reg a) (s.reg b)⟩⟩

end Sys2Proof.Machine
end

section
/-! PROOF. The logic and shift family (42_logic_shift.md R150 to R156): the one register write of each instruction, the
bits of a shifted word when the count is below 32, and from these the statement about the family. -/

namespace Sys2Proof.Machine

/-! ## The state each instruction gives -/

/-- AND on the edge that executes it (R151). -/
theorem exec_and_eq (a b d : RegIdx) (s : State) :
    exec (.and a b d) s = .next (s.setReg d (s.reg a &&& s.reg b)) := rfl

/-- OR on the edge that executes it (R152). -/
theorem exec_or_eq (a b d : RegIdx) (s : State) :
    exec (.or a b d) s = .next (s.setReg d (s.reg a ||| s.reg b)) := rfl

/-- NOT on the edge that executes it (R153). -/
theorem exec_not_eq (a d : RegIdx) (s : State) : exec (.not a d) s = .next (s.setReg d (~~~ s.reg a)) := rfl

/-- XOR on the edge that executes it (R154). -/
theorem exec_xor_eq (a b d : RegIdx) (s : State) :
    exec (.xor a b d) s = .next (s.setReg d (s.reg a ^^^ s.reg b)) := rfl

/-- SHL on the edge that executes it (R155). -/
theorem exec_shl_eq (a b d : RegIdx) (s : State) :
    exec (.shl a b d) s = .next (s.setReg d (s.reg a <<< shamt (s.reg b))) := rfl

/-- SHR on the edge that executes it (R156). -/
theorem exec_shr_eq (a b d : RegIdx) (s : State) :
    exec (.shr a b d) s = .next (s.setReg d (s.reg a >>> shamt (s.reg b))) := rfl

/-! ## The bits of a result -/

/-- A count below 32 is its own low five bits. -/
theorem shamt_of_lt {n : Word} (h : n.toNat < 32) : shamt n = n.toNat := by
  rw [shamt_eq, Nat.mod_eq_of_lt h]

/-- Complementing a word complements each of its 32 bits. -/
theorem getLsbD_not_word (v : Word) {k : Nat} (hk : k < 32) : (~~~ v).getLsbD k = !v.getLsbD k := by
  rw [BitVec.getLsbD_not, decide_eq_true hk, Bool.true_and]

/-- Bit `k` of a word shifted left by a count below 32: zeros below the count, the bit `n` places lower from there. -/
theorem getLsbD_shl_shamt (v : Word) {n : Word} {k : Nat} (hn : n.toNat < 32) (hk : k < 32) :
    (v <<< shamt n).getLsbD k = (decide (n.toNat ≤ k) && v.getLsbD (k - n.toNat)) := by
  have hcount : (!decide (k < n.toNat)) = decide (n.toNat ≤ k) := by rw [← decide_not, decide_eq_decide, Nat.not_lt]
  rw [shamt_of_lt hn, BitVec.getLsbD_shiftLeft, decide_eq_true hk, Bool.true_and, hcount]

/-- Bit `k` of a word shifted right by a count below 32: the bit `n` places higher, which reads 0 past bit 31. -/
theorem getLsbD_shr_shamt (v : Word) {n : Word} (k : Nat) (hn : n.toNat < 32) :
    (v >>> shamt n).getLsbD k = v.getLsbD (k + n.toNat) := by
  rw [shamt_of_lt hn, BitVec.getLsbD_ushiftRight, Nat.add_comm]

/-! ## The statement -/

/-- Settles O29: each instruction is one register write (`State.onlyReg_setReg`), and the bits of the word written are
those of the bitwise operation. -/
theorem logicFamilyWorksBitByBit : Obligations.LogicFamilyWorksBitByBit := by
  intro s a b d
  refine ⟨⟨_, _, exec_and_eq a b d s, s.onlyReg_setReg d _, fun k _ => ?and⟩,
    ⟨_, _, exec_or_eq a b d s, s.onlyReg_setReg d _, fun k _ => ?or⟩,
    ⟨_, _, exec_not_eq a d s, s.onlyReg_setReg d _, fun k hk => ?not⟩,
    ⟨_, _, exec_xor_eq a b d s, s.onlyReg_setReg d _, fun k _ => ?xor⟩,
    ⟨_, _, exec_shl_eq a b d s, s.onlyReg_setReg d _, fun hcount k hk => ?shl⟩,
    ⟨_, _, exec_shr_eq a b d s, s.onlyReg_setReg d _, fun hcount k _ => ?shr⟩⟩
  case and => exact BitVec.getLsbD_and
  case or => exact BitVec.getLsbD_or
  case not => exact getLsbD_not_word (s.reg a) hk
  case xor => exact BitVec.getLsbD_xor
  case shl => exact getLsbD_shl_shamt (s.reg a) hcount hk
  case shr => exact getLsbD_shr_shamt (s.reg a) k hcount

end Sys2Proof.Machine
end

section
/-! PROOF. The unrecognised opcodes (46_io_nop.md R202): each of their five rows executes as nothing, so a word that
decodes to one leaves of its two edges only what the fetch issue and the clock latch have done. -/

namespace Sys2Proof.Machine

/-! ## The state each row gives -/

/-- Opcode 0x00 on the edge that executes it (R202). -/
theorem exec_nop00_eq (s : State) : exec .nop00 s = .next s := rfl

/-- Opcodes 0x1C to 0x1F on the edge that executes them (R202). -/
theorem exec_nop1C_eq (op : Opcode) (s : State) : exec (.nop1C op) s = .next s := rfl

/-- Opcodes 0x20 to 0x3F on the edge that executes them (R202). -/
theorem exec_nop20_eq (op : Opcode) (s : State) : exec (.nop20 op) s = .next s := rfl

/-- Opcodes 0x40 to 0x7F on the edge that executes them (R202). -/
theorem exec_nop40_eq (op : Opcode) (s : State) : exec (.nop40 op) s = .next s := rfl

/-- Opcodes 0x80 to 0xFF on the edge that executes them (R202). -/
theorem exec_nop80_eq (op : Opcode) (s : State) : exec (.nop80 op) s = .next s := rfl

/-! ## A word with an unrecognised opcode -/

/-- Whichever row holds an unrecognised opcode, executing it changes nothing. -/
theorem exec_decodeUnrecognised (op : Opcode) (s : State) : exec (decodeUnrecognised op) s = .next s := by
  unfold decodeUnrecognised
  split_ifs
  · exact exec_nop00_eq s
  · exact exec_nop1C_eq op s
  · exact exec_nop20_eq op s
  · exact exec_nop40_eq op s
  · exact exec_nop80_eq op s

/-- A word whose opcode lies outside 0x01 to 0x1B executes as nothing (30_encoding.md R88). -/
theorem exec_decode_unrecognised {w : Word} (h : (opcodeOf w).toNat = 0 ∨ 0x1C ≤ (opcodeOf w).toNat) (s : State) :
    exec (decode w) s = .next s := by
  rw [decode_unrecognised w h, exec_decodeUnrecognised]

/-- An edge with a FETCH at the head and a known word on Memory executes that word, the task gone from the queue
(40_cycle.md R116). -/
theorem eval_fetch_known {s : State} {i : Inputs} {w : Word} {rest : List Task} (hf : s.Healthy) (hr : s.RisesOn i)
    (hreset : i.reset = false) (hmem : i.memory = some w) (hq : s.queue = .fetch :: rest) :
    eval s i = exec (decode w) ((s.present i).latchClock.setQueue rest) := by
  have hqueue : (s.present i).latchClock.queue = .fetch :: rest := hq
  rw [eval_edge hf hr hreset, risingEdge_cons hqueue, State.runTask, State.runFetch]
  simp only [State.setQueue_input, State.latchClock_input, State.present_input, hmem, State.countSample_some,
    State.sampled_some]

/-- The edge that fetches a word with an unrecognised opcode only takes the FETCH off the queue (R202). -/
theorem eval_fetch_unrecognised {s : State} {i : Inputs} {w : Word} {rest : List Task}
    (hw : (opcodeOf w).toNat = 0 ∨ 0x1C ≤ (opcodeOf w).toNat) (hf : s.Healthy) (hr : s.RisesOn i)
    (hreset : i.reset = false) (hmem : i.memory = some w) (hq : s.queue = .fetch :: rest) :
    eval s i = .next ((s.present i).latchClock.setQueue rest) := by
  rw [eval_fetch_known hf hr hreset hmem hq, exec_decode_unrecognised hw]

/-- All that R202 lets move over the two edges of a no-op: the fetch's request on the two memory-side latches, `pc`, the
Clock level seen last, and the model's record of the inputs presented last. -/
def State.afterNoOp (s : State) (last : Inputs) : State :=
  { s with
    address := some (tagged s.pc)
    memOut := .released
    pc := satinc16 s.pc
    queue := []
    clkPrev := last.clock
    input := last }

/-- A fetch issue, a latched level, and the FETCH taken off the queue with nothing done make up the whole no-op. -/
theorem State.fetchIssue_then_drop_eq (s : State) (i j k : Inputs) :
    (((s.present i).latchClock.fetchIssue.present j).latchClock.present k).latchClock.setQueue [] = s.afterNoOp k := by
  simp only [State.afterNoOp, State.present, State.latchClock, State.setQueue, State.fetchIssue_eq]

/-- From an idle core, a word with an unrecognised opcode goes through its two edges, the low level between them
included (R202). -/
theorem eval_unrecognised_cycle {s : State} {i j k : Inputs} {w : Word}
    (hw : (opcodeOf w).toNat = 0 ∨ 0x1C ≤ (opcodeOf w).toNat) (hidle : s.Idle) (hi : i.clock = true)
    (hireset : i.reset = false) (hj : j.clock = false) (hjreset : j.reset = false) (hk : k.clock = true)
    (hkreset : k.reset = false) (hmem : k.memory = some w) :
    ∃ t u, eval s i = .next t ∧ eval t j = .next u ∧ eval u k = .next (s.afterNoOp k) := by
  obtain ⟨hq, hf, hlow⟩ := hidle
  have hno : ¬ (s.present i).latchClock.fetchIssue.RisesOn j := fun hr => absurd (hj.symm.trans hr.2) (by decide)
  have hqueue : ((s.present i).latchClock.fetchIssue.present j).latchClock.queue = [.fetch] := by
    simp [State.fetchIssue_eq, hq]
  rw [← s.fetchIssue_then_drop_eq i j k]
  exact ⟨_, _, eval_fetchIssue hf ⟨hlow, hi⟩ hireset hq, eval_no_edge_reset_low hf hno hjreset,
    eval_fetch_unrecognised hw hf ⟨hj, hk⟩ hkreset hmem hqueue⟩

/-! ## The statement -/

/-- Settles O5: `exec` is the identity on every row, and the state after the two edges (`eval_unrecognised_cycle`) is
read field by field. -/
theorem unrecognisedOpcodesAreNoOps : Obligations.UnrecognisedOpcodesAreNoOps := by
  refine ⟨fun s => ⟨exec_nop00_eq s, fun op => ⟨exec_nop1C_eq op s, exec_nop20_eq op s, exec_nop40_eq op s,
    exec_nop80_eq op s⟩⟩, fun w hw => ⟨exec_decode_unrecognised hw, ?edges⟩⟩
  case edges =>
    intro s i j k hidle hi hireset hj hjreset hk hkreset hmem
    obtain ⟨t, u, issue, low, fetch⟩ := eval_unrecognised_cycle hw hidle hi hireset hj hjreset hk hkreset hmem
    obtain ⟨_, hf, _⟩ := hidle
    exact ⟨t, u, s.afterNoOp k, issue, low, fetch, State.reg_congr rfl, ⟨rfl, rfl⟩, satinc16_toNat s.pc, rfl, rfl, rfl,
      rfl, ⟨State.memWord_congr rfl, rfl⟩, hf, rfl⟩

end Sys2Proof.Machine
end

section
/-! PROOF. Decoder and encoder (30_encoding.md R92, R93): every word is its opcode, its fields and the bits below them,
so encoding the fields of a word keeps exactly the bits that its format uses; the round trip from the instruction then
gives the one from the word. -/

namespace Sys2Proof

/-! ## From the instruction to the word and back -/

/-- The row found for an opcode byte is the one whose range holds it (R88). -/
theorem decodeUnrecognised_nop1C {op : Opcode} (h : Opcode.inRange 0x1C 0x1F op = true) :
    decodeUnrecognised op = .nop1C op := by
  simp only [Opcode.inRange, Bool.and_eq_true, decide_eq_true_eq] at h
  rw [decodeUnrecognised, if_neg (by omega), if_pos (by omega)]

theorem decodeUnrecognised_nop20 {op : Opcode} (h : Opcode.inRange 0x20 0x3F op = true) :
    decodeUnrecognised op = .nop20 op := by
  simp only [Opcode.inRange, Bool.and_eq_true, decide_eq_true_eq] at h
  rw [decodeUnrecognised, if_neg (by omega), if_neg (by omega), if_pos (by omega)]

theorem decodeUnrecognised_nop40 {op : Opcode} (h : Opcode.inRange 0x40 0x7F op = true) :
    decodeUnrecognised op = .nop40 op := by
  simp only [Opcode.inRange, Bool.and_eq_true, decide_eq_true_eq] at h
  rw [decodeUnrecognised, if_neg (by omega), if_neg (by omega), if_neg (by omega), if_pos (by omega)]

theorem decodeUnrecognised_nop80 {op : Opcode} (h : Opcode.inRange 0x80 0xFF op = true) :
    decodeUnrecognised op = .nop80 op := by
  simp only [Opcode.inRange, Bool.and_eq_true, decide_eq_true_eq] at h
  rw [decodeUnrecognised, if_neg (by omega), if_neg (by omega), if_neg (by omega), if_neg (by omega)]

/-- The canonical word of an opcode byte in the range of one of the rows 1C to FF decodes to that opcode's row. -/
theorem decode_encodeUnrecognised {lo hi : Nat} {op : Opcode} (hlo : 0x1C ≤ lo)
    (h : Opcode.inRange lo hi op = true) : decode (encodeUnrecognised op) = decodeUnrecognised op := by
  simp only [Opcode.inRange, Bool.and_eq_true, decide_eq_true_eq] at h
  rw [decode_unrecognised, opcodeOf_encodeUnrecognised]
  rw [opcodeOf_encodeUnrecognised]
  omega

/-- Settles O1: the decoder reads from each canonical word the opcode and the fields that were put there, format by
format; an unrecognised opcode is found in the row whose range well-formedness asks for. -/
theorem decodeEncodeRoundTrip : Obligations.DecodeEncodeRoundTrip := by
  intro i hwf
  cases i with
  | loadimm r imm m => simp [encode, decode, opcodeOf_encodeI, fieldR_encodeI, fieldImm_encodeI, fieldM_encodeI]
  | load r imm => simp [encode, decode, opcodeOf_encodeI, fieldR_encodeI, fieldImm_encodeI]
  | store r imm => simp [encode, decode, opcodeOf_encodeI, fieldR_encodeI, fieldImm_encodeI]
  | nop00 => decide
  | nop1C op => rw [encode, decode_encodeUnrecognised (by decide) hwf, decodeUnrecognised_nop1C hwf]
  | nop20 op => rw [encode, decode_encodeUnrecognised (by decide) hwf, decodeUnrecognised_nop20 hwf]
  | nop40 op => rw [encode, decode_encodeUnrecognised (by decide) hwf, decodeUnrecognised_nop40 hwf]
  | nop80 op => rw [encode, decode_encodeUnrecognised (by decide) hwf, decodeUnrecognised_nop80 hwf]
  | _ => simp [encode, decode, opcodeOf_encodeR, fieldA_encodeR, fieldB_encodeR, fieldD_encodeR]

/-! ## The parts of a word -/

/-- A word is its opcode, its three register fields and the twelve bits below (R81). -/
theorem word_eq_partsR (w : Word) :
    w = opcodeOf w ++ BitVec.ofFin (w := 4) (fieldA w) ++ BitVec.ofFin (w := 4) (fieldB w) ++
      BitVec.ofFin (w := 4) (fieldD w) ++ w.extractLsb' 0 12 := by
  have hw := w.isLt
  apply BitVec.eq_of_toNat_eq
  simp only [BitVec.toNat_append, BitVec.toNat_ofFin, fieldA, fieldB, fieldD, BitVec.val_toFin, opcodeOf_toNat,
    BitVec.extractLsb'_toNat, Nat.shiftRight_eq_div_pow]
  rw [← Nat.shiftLeft_add_eq_or_of_lt (by omega), ← Nat.shiftLeft_add_eq_or_of_lt (by omega),
    ← Nat.shiftLeft_add_eq_or_of_lt (by omega), ← Nat.shiftLeft_add_eq_or_of_lt (by omega)]
  simp only [Nat.shiftLeft_eq]
  omega

/-- A word is its opcode, its register field, its immediate and its marker (R82). -/
theorem word_eq_partsI (w : Word) :
    w = opcodeOf w ++ BitVec.ofFin (w := 4) (fieldR w) ++ fieldImm w ++ fieldM w := by
  have hw := w.isLt
  apply BitVec.eq_of_toNat_eq
  simp only [BitVec.toNat_append, BitVec.toNat_ofFin, fieldR, fieldImm, fieldM, BitVec.val_toFin, opcodeOf_toNat,
    BitVec.extractLsb'_toNat, Nat.shiftRight_eq_div_pow]
  rw [← Nat.shiftLeft_add_eq_or_of_lt (by omega), ← Nat.shiftLeft_add_eq_or_of_lt (by omega),
    ← Nat.shiftLeft_add_eq_or_of_lt (by omega)]
  simp only [Nat.shiftLeft_eq]
  omega

/-- A mask given part by part acts on each part of an R-type word. -/
theorem and_maskR (w : Word) (op : BitVec 8) (a b d : BitVec 4) :
    w &&& (op ++ a ++ b ++ d ++ 0#12) =
      (opcodeOf w &&& op) ++ (BitVec.ofFin (fieldA w) &&& a) ++ (BitVec.ofFin (fieldB w) &&& b) ++
        (BitVec.ofFin (fieldD w) &&& d) ++ 0#12 := by
  refine (congrArg (· &&& _) (word_eq_partsR w)).trans ?_
  refine BitVec.and_append.trans ?_
  rw [BitVec.and_append, BitVec.and_append, BitVec.and_append, BitVec.and_zero]

/-- A mask given part by part acts on each part of an I-type word. -/
theorem and_maskI (w : Word) (op : BitVec 8) (r : BitVec 4) (imm : BitVec 16) (m : BitVec 4) :
    w &&& (op ++ r ++ imm ++ m) =
      (opcodeOf w &&& op) ++ (BitVec.ofFin (fieldR w) &&& r) ++ (fieldImm w &&& imm) ++ (fieldM w &&& m) := by
  refine (congrArg (· &&& _) (word_eq_partsI w)).trans ?_
  refine BitVec.and_append.trans ?_
  rw [BitVec.and_append, BitVec.and_append]

/-! ## Encoding the fields of a word keeps the bits its format uses (R83, R84) -/

theorem ofFin_zero : BitVec.ofFin (w := 4) 0 = 0#4 := rfl

/-- The word of an unrecognised opcode is an I-type word with nothing in its fields. -/
theorem encodeUnrecognised_eq_encodeI (op : Opcode) : encodeUnrecognised op = encodeI op 0 0 0 := by
  apply BitVec.eq_of_toNat_eq
  simp [encodeUnrecognised_toNat, encodeI_toNat]

section
variable {w : Word} {op : Opcode}

theorem encodeR_fields_abd (h : opcodeOf w = op) :
    encodeR op (fieldA w) (fieldB w) (fieldD w) = w &&& 0xFFFFF000 := by
  refine Eq.trans ?_ (and_maskR w (.allOnes 8) (.allOnes 4) (.allOnes 4) (.allOnes 4)).symm
  simp only [h, encodeR, BitVec.and_allOnes]

theorem encodeR_fields_ad (h : opcodeOf w = op) :
    encodeR op (fieldA w) 0 (fieldD w) = w &&& 0xFFF0F000 := by
  refine Eq.trans ?_ (and_maskR w (.allOnes 8) (.allOnes 4) 0 (.allOnes 4)).symm
  simp only [h, encodeR, BitVec.and_allOnes, ofFin_zero, BitVec.ofNat_eq_ofNat, BitVec.and_zero]

theorem encodeR_fields_ab (h : opcodeOf w = op) :
    encodeR op (fieldA w) (fieldB w) 0 = w &&& 0xFFFF0000 := by
  refine Eq.trans ?_ (and_maskR w (.allOnes 8) (.allOnes 4) (.allOnes 4) 0).symm
  simp only [h, encodeR, BitVec.and_allOnes, ofFin_zero, BitVec.ofNat_eq_ofNat, BitVec.and_zero]

theorem encodeR_fields_a (h : opcodeOf w = op) : encodeR op (fieldA w) 0 0 = w &&& 0xFFF00000 := by
  refine Eq.trans ?_ (and_maskR w (.allOnes 8) (.allOnes 4) 0 0).symm
  simp only [h, encodeR, BitVec.and_allOnes, ofFin_zero, BitVec.ofNat_eq_ofNat, BitVec.and_zero]

theorem encodeR_fields_d (h : opcodeOf w = op) : encodeR op 0 0 (fieldD w) = w &&& 0xFF00F000 := by
  refine Eq.trans ?_ (and_maskR w (.allOnes 8) 0 0 (.allOnes 4)).symm
  simp only [h, encodeR, BitVec.and_allOnes, ofFin_zero, BitVec.ofNat_eq_ofNat, BitVec.and_zero]

theorem encodeI_fields (h : opcodeOf w = op) : encodeI op (fieldR w) (fieldImm w) (fieldM w) = w &&& 0xFFFFFFFF := by
  refine Eq.trans ?_ (and_maskI w (.allOnes 8) (.allOnes 4) (.allOnes 16) (.allOnes 4)).symm
  simp only [h, encodeI, BitVec.and_allOnes]

theorem encodeI_fields_unmarked (h : opcodeOf w = op) :
    encodeI op (fieldR w) (fieldImm w) 0 = w &&& 0xFFFFFFF0 := by
  refine Eq.trans ?_ (and_maskI w (.allOnes 8) (.allOnes 4) (.allOnes 16) 0).symm
  simp only [h, encodeI, BitVec.and_allOnes, BitVec.ofNat_eq_ofNat, BitVec.and_zero]

theorem encodeUnrecognised_opcode (h : opcodeOf w = op) : encodeUnrecognised op = w &&& 0xFF000000 := by
  refine Eq.trans ?_ (and_maskI w (.allOnes 8) 0 0 0).symm
  simp only [h, encodeUnrecognised_eq_encodeI, encodeI, BitVec.and_allOnes, ofFin_zero, BitVec.ofNat_eq_ofNat,
    BitVec.and_zero]

end

/-! ## From the word to the instruction and back -/

/-- The encoder gives an unrecognised opcode the same word in whichever row it stands (R93). -/
theorem encode_decodeUnrecognised (op : Opcode) : encode (decodeUnrecognised op) = encodeUnrecognised op := by
  unfold decodeUnrecognised
  split_ifs with h
  · have hop : op = 0 := BitVec.eq_of_toNat_eq (by simpa using h)
    rw [hop, encode]
  all_goals rfl

/-- An unrecognised opcode uses no bit but its own (R83). -/
theorem Machine.usedBits_unrecognised {op : Opcode} (h : op.toNat = 0 ∨ 0x1C ≤ op.toNat) :
    Machine.usedBits op = 0xFF000000 := by
  unfold Machine.usedBits
  split <;> first | omega | rfl

theorem Opcode.eq_ofNat {op : Opcode} {n : Nat} (h : op.toNat = n) : op = BitVec.ofNat 8 n := by
  rw [← h, BitVec.ofNat_toNat, BitVec.setWidth_eq]

/-- Encoding what a word decodes to keeps the bits the opcode uses and clears the others (R93): the cases are the
opcodes, grouped by the fields they use. -/
theorem encode_decode (w : Word) : encode (decode w) = w &&& Machine.usedBits (opcodeOf w) := by
  by_cases hun : (opcodeOf w).toNat = 0 ∨ 0x1C ≤ (opcodeOf w).toNat
  · rw [decode_unrecognised w hun, encode_decodeUnrecognised, Machine.usedBits_unrecognised hun]
    exact encodeUnrecognised_opcode rfl
  · unfold decode
    split
    case h_1 h | h_2 h | h_3 h | h_4 h | h_5 h | h_6 h | h_7 h | h_9 h | h_10 h | h_11 h =>
      rw [Opcode.eq_ofNat h]
      exact encodeR_fields_abd (Opcode.eq_ofNat h)
    case h_8 h | h_21 h | h_24 h =>
      rw [Opcode.eq_ofNat h]
      exact encodeR_fields_ad (Opcode.eq_ofNat h)
    case h_12 h | h_14 h | h_15 h | h_16 h | h_17 h | h_18 h | h_19 h | h_27 h =>
      rw [Opcode.eq_ofNat h]
      exact encodeR_fields_a (Opcode.eq_ofNat h)
    case h_13 h | h_25 h =>
      rw [Opcode.eq_ofNat h]
      exact encodeR_fields_ab (Opcode.eq_ofNat h)
    case h_20 h =>
      rw [Opcode.eq_ofNat h]
      exact encodeI_fields (Opcode.eq_ofNat h)
    case h_22 h | h_23 h =>
      rw [Opcode.eq_ofNat h]
      exact encodeI_fields_unmarked (Opcode.eq_ofNat h)
    case h_26 h =>
      rw [Opcode.eq_ofNat h]
      exact encodeR_fields_d (Opcode.eq_ofNat h)
    case h_28 => grind

/-- Every word decodes to a well-formed instruction (R92): an unrecognised opcode goes to the row that holds it. -/
theorem decode_wf (w : Word) : (decode w).wf = true := by
  have hlt := (opcodeOf w).isLt
  unfold decode
  split
  case h_28 =>
    unfold decodeUnrecognised
    split_ifs
    · rfl
    · simp only [Instr.wf, Opcode.inRange, Bool.and_eq_true, decide_eq_true_eq]
      grind
    all_goals
      simp only [Instr.wf, Opcode.inRange, Bool.and_eq_true, decide_eq_true_eq]
      omega
  all_goals rfl

/-- Every opcode uses its own eight bits. -/
theorem opcodeOf_usedBits (op : Opcode) : opcodeOf (Machine.usedBits op) = .allOnes 8 := by
  unfold Machine.usedBits
  split <;> rfl

/-- The canonical word of what a word decodes to has the word's opcode. -/
theorem opcodeOf_encode_decode (w : Word) : opcodeOf (encode (decode w)) = opcodeOf w := by
  have hand : opcodeOf (w &&& Machine.usedBits (opcodeOf w)) =
      opcodeOf w &&& opcodeOf (Machine.usedBits (opcodeOf w)) := BitVec.extractLsb'_and
  rw [encode_decode, hand, opcodeOf_usedBits, BitVec.and_allOnes]

theorem decode_encode_decode (w : Word) : decode (encode (decode w)) = decode w :=
  decodeEncodeRoundTrip (decode w) (decode_wf w)

/-! ## The statements about words -/

/-- Settles O2: the canonical word is `encode_decode`, and the round trip of the instruction gives that of the word. -/
theorem encodeOfDecodeIsCanonical : Obligations.EncodeOfDecodeIsCanonical := fun w =>
  ⟨decode_wf w, encode_decode w, opcodeOf_encode_decode w, decode_encode_decode w⟩

/-- Settles O3: two words with the same used bits have the same canonical word, so they decode alike. -/
theorem decodeIgnoresUnusedBits : Obligations.DecodeIgnoresUnusedBits := by
  intro w v hop hused
  have hcanonical : encode (decode w) = encode (decode v) := by rw [encode_decode, hused, hop, encode_decode]
  calc decode w = decode (encode (decode w)) := (decode_encode_decode w).symm
    _ = decode (encode (decode v)) := by rw [hcanonical]
    _ = decode v := decode_encode_decode v

/-- Settles O4: each word is closed, and the decoder runs on it. -/
theorem wordsOfTheSpecDecode : Obligations.WordsOfTheSpecDecode := by
  unfold Obligations.WordsOfTheSpecDecode
  decide

end Sys2Proof
end

section
/-! SUPPORT. The effect of an instruction (40_cycle.md R119): which one change of the state it asks for, found from the
registers and the flags alone. What an instruction does not read, and which register and which `pc` it can change, is
then a matter of nine kinds of effect and not of 32 instructions. -/

namespace Sys2Proof.Machine

/-- The change of the state that an instruction asks for, with the values it has read. -/
inductive Effect where
  /-- Register `d` takes the value `v`. -/
  | write (d : RegIdx) (v : Word)
  /-- Register `d` takes the Stdin input (46_io_nop.md R200). -/
  | input (d : RegIdx)
  /-- A jump through register `a` to the value `v` there, if it is taken (43_control.md R160). -/
  | jump (taken : Bool) (a : RegIdx) (v : Word)
  /-- The flags take two values (43_control.md R162). -/
  | latch (u v : Word)
  /-- A word is requested for register `d` (45_memory_access.md R191, R193). -/
  | load (p : Addr) (d : RegIdx)
  /-- A WRITE is owed (45_memory_access.md R192, R194). -/
  | store (p : Addr) (v : Word)
  /-- Stdout takes a value (46_io_nop.md R201). -/
  | output (v : Word)
  /-- DivideByZero (60_exceptions.md R211). -/
  | trap
  /-- Nothing (46_io_nop.md R202). -/
  | nothing

/-- The state after an effect. -/
def Effect.apply (s : State) : Effect → State
  | .write d v => s.setReg d v
  | .input d => (s.countSample s.input.stdin).setReg d (s.sampled s.input.stdin)
  | .jump taken _ v => s.jumpIf taken v
  | .latch u v => s.latchFlags u v
  | .load p d => s.startLoad p d
  | .store p v => s.startStore p v
  | .output v => s.driveStdout v
  | .trap => s.raiseDivideByZero
  | .nothing => s

/-- The effect an instruction has in the state `s`. -/
def effectOf (s : State) : Instr → Effect
  | .add a b d => .write d (s.reg a + s.reg b)
  | .sub a b d => .write d (s.reg a - s.reg b)
  | .mul a b d => .write d (s.reg a * s.reg b)
  | .div a b d => if s.reg b = 0 then .trap else .write d (sdiv (s.reg a) (s.reg b))
  | .mod a b d => if s.reg b = 0 then .trap else .write d (srem (s.reg a) (s.reg b))
  | .and a b d => .write d (s.reg a &&& s.reg b)
  | .or a b d => .write d (s.reg a ||| s.reg b)
  | .not a d => .write d (~~~ s.reg a)
  | .xor a b d => .write d (s.reg a ^^^ s.reg b)
  | .shl a b d => .write d (s.reg a <<< shamt (s.reg b))
  | .shr a b d => .write d (s.reg a >>> shamt (s.reg b))
  | .jmp a => .jump true a (s.reg a)
  | .cmp a b => .latch (s.reg a) (s.reg b)
  | .jgt a => .jump s.flagsGt a (s.reg a)
  | .jge a => .jump s.flagsGe a (s.reg a)
  | .jlt a => .jump s.flagsLt a (s.reg a)
  | .jle a => .jump s.flagsLe a (s.reg a)
  | .jeq a => .jump s.flagsEq a (s.reg a)
  | .jne a => .jump s.flagsNe a (s.reg a)
  | .loadimm r imm m => .write r (s.reg r ||| immOperand imm m)
  | .mov a d => .write d (s.reg a)
  | .load r imm => .load imm r
  | .store r imm => .store imm (s.reg r)
  | .loadr a d => .load (regAddress (s.reg a)) d
  | .storer a b => .store (regAddress (s.reg a)) (s.reg b)
  | .inp d => .input d
  | .out a => .output (s.reg a)
  | .nop00 => .nothing
  | .nop1C _ => .nothing
  | .nop20 _ => .nothing
  | .nop40 _ => .nothing
  | .nop80 _ => .nothing

/-- Executing an instruction is applying its effect, and every instruction answers a next state. -/
theorem exec_eq (i : Instr) (s : State) : exec i s = .next ((effectOf s i).apply s) := by
  cases i with
  | div a b d =>
    simp only [exec, execDiv, effectOf]
    split <;> rfl
  | mod a b d =>
    simp only [exec, execMod, effectOf]
    split <;> rfl
  | _ => rfl

theorem exec_next_iff {i : Instr} {s t : State} : exec i s = .next t ↔ t = (effectOf s i).apply s := by
  rw [exec_eq, Host.Outcome.next.injEq, eq_comm]

/-! ## What an effect changes -/

/-- The tasks an effect enqueues. -/
def Effect.tasks : Effect → List Task
  | .load _ d => [.setRegister d]
  | .store p v => [.write p v]
  | _ => []

theorem Effect.apply_queue (e : Effect) (s : State) : (e.apply s).queue = s.queue ++ e.tasks := by
  cases e with
  | load p d => rfl
  | store p v => rfl
  | _ => exact (List.append_nil s.queue).symm

theorem Effect.tasks_length_le (e : Effect) : e.tasks.length ≤ 1 := by
  cases e <;> simp [Effect.tasks]

theorem Effect.fetch_notMem_tasks (e : Effect) : .fetch ∉ e.tasks := by
  cases e <;> simp [Effect.tasks]

/-- The register an effect writes. -/
def Effect.destination : Effect → Option RegIdx
  | .write d _ => some d
  | .input d => some d
  | _ => none

/-- An effect changes no register but its destination. -/
theorem Effect.apply_reg {e : Effect} {s : State} {r : RegIdx} (h : e.destination ≠ some r) :
    (e.apply s).reg r = s.reg r := by
  cases e with
  | write d v => exact (State.reg_setReg s d r v).trans (if_neg fun hr => h (congrArg some hr.symm))
  | input d => exact (State.reg_setReg _ d r _).trans (if_neg fun hr => h (congrArg some hr.symm))
  | _ => rfl

/-- The register written by an instruction's effect is the instruction's destination (10_state.md R22). -/
theorem destinationOf_of_effect {s : State} {i : Instr} {r : RegIdx} (h : (effectOf s i).destination = some r) :
    destinationOf i = some r := by
  cases i with
  | div a b d =>
    simp only [effectOf] at h
    split at h
    · cases h
    · exact h
  | mod a b d =>
    simp only [effectOf] at h
    split at h
    · cases h
    · exact h
  | _ => exact h

/-- The register and the value there that an effect jumps to. -/
def Effect.target : Effect → Option (RegIdx × Word)
  | .jump _ a v => some (a, v)
  | _ => none

/-- An effect moves `pc` only to the clamped value of its target (10_state.md R24). -/
theorem Effect.apply_pc (e : Effect) (s : State) :
    (e.apply s).pc = s.pc ∨ ∃ a v, e.target = some (a, v) ∧ (e.apply s).pc = clamp16 v := by
  cases e with
  | jump taken a v =>
    cases taken with
    | true => exact .inr ⟨a, v, rfl, rfl⟩
    | false => exact .inl rfl
  | _ => exact .inl rfl

/-- The target of an instruction's effect is in its jump register (43_control.md R160). -/
theorem jumpRegister_of_effect {s : State} {i : Instr} {a : RegIdx} {v : Word}
    (h : (effectOf s i).target = some (a, v)) : jumpRegister i = some a ∧ v = s.reg a := by
  cases i with
  | jmp | jgt | jge | jlt | jle | jeq | jne =>
    obtain ⟨rfl, rfl⟩ := Prod.mk.inj (Option.some.inj h)
    exact ⟨rfl, rfl⟩
  | div a b d =>
    simp only [effectOf] at h
    split at h <;> cases h
  | mod a b d =>
    simp only [effectOf] at h
    split at h <;> cases h
  | _ => cases h

/-! ## What an effect does not read -/

/-- No effect is found from `pc` (10_state.md R23). -/
theorem effectOf_setPc (s : State) (p : Addr) (i : Instr) : effectOf (s.setPc p) i = effectOf s i := by
  cases i <;> rfl

/-- Only a conditional jump is found from the flags (10_state.md R25). -/
theorem effectOf_latchFlags (s : State) (a b : Word) {i : Instr} (h : isConditionalJump i = false) :
    effectOf (s.latchFlags a b) i = effectOf s i := by
  cases i with
  | jgt | jge | jlt | jle | jeq | jne => cases h
  | _ => rfl

/-- Applied with another `pc`, an effect either leaves that one alone too or jumps to the same place. -/
theorem Effect.apply_setPc (e : Effect) (s : State) (p : Addr) :
    ((e.apply s).pc = s.pc ∧ e.apply (s.setPc p) = (e.apply s).setPc p) ∨ e.apply (s.setPc p) = e.apply s := by
  cases e with
  | jump taken a v =>
    cases taken with
    | true => exact .inr rfl
    | false => exact .inl ⟨rfl, rfl⟩
  | _ => exact .inl ⟨rfl, rfl⟩

/-- Applied with other flags, an effect either leaves those alone too or latches the same two values. -/
theorem Effect.apply_latchFlags (e : Effect) (s : State) (a b : Word) :
    (s.SameFlags (e.apply s) ∧ e.apply (s.latchFlags a b) = (e.apply s).latchFlags a b) ∨
      e.apply (s.latchFlags a b) = e.apply s := by
  cases e with
  | latch u v => exact .inr rfl
  | _ => exact .inl ⟨⟨rfl, rfl⟩, rfl⟩

/-- `s` in other surroundings: another last-seen Clock level, other presented inputs, other stimuli to come. -/
def State.surround (s : State) (c : Bool) (j : Inputs) (l : List Stimulus) : State :=
  { s with clkPrev := c, input := j, stimuli := l }

/-- Of its surroundings an instruction reads only Stdin: with the same Stdin it does the same in others. -/
theorem exec_surround {i : Instr} {s t : State} (c : Bool) {j : Inputs} (l : List Stimulus)
    (hstdin : j.stdin = s.input.stdin) (h : exec i s = .next t) :
    exec i (s.surround c j l) = .next (t.surround c j l) := by
  have heffect : effectOf (s.surround c j l) i = effectOf s i := by cases i <;> rfl
  rw [exec_next_iff] at h ⊢
  rw [heffect, h]
  cases effectOf s i with
  | input d =>
    simp only [Effect.apply, State.surround, hstdin, State.setReg, State.countSample, State.sampled]
  | _ => rfl

/-! ## What an execution changes -/

theorem exec_answers (i : Instr) (s : State) : ∃ t, exec i s = .next t := ⟨_, exec_eq i s⟩

/-- An instruction enqueues at most one task, never a FETCH (40_cycle.md R119). -/
theorem exec_queue {i : Instr} {s t : State} (h : exec i s = .next t) :
    ∃ added, t.queue = s.queue ++ added ∧ added.length ≤ 1 ∧ .fetch ∉ added := by
  rw [exec_next_iff] at h
  subst h
  exact ⟨_, Effect.apply_queue _ s, Effect.tasks_length_le _, Effect.fetch_notMem_tasks _⟩

/-- An instruction changes no register but its destination (10_state.md R22). -/
theorem exec_reg {i : Instr} {s t : State} (h : exec i s = .next t) {r : RegIdx} (hr : t.reg r ≠ s.reg r) :
    destinationOf i = some r := by
  rw [exec_next_iff] at h
  subst h
  by_contra hd
  exact hr (Effect.apply_reg fun he => hd (destinationOf_of_effect he))

/-- An instruction moves `pc` only by a jump, to its clamped register (10_state.md R24). -/
theorem exec_pc {i : Instr} {s t : State} (h : exec i s = .next t) :
    t.pc = s.pc ∨ ∃ a, jumpRegister i = some a ∧ t.pc = clamp16 (s.reg a) := by
  rw [exec_next_iff] at h
  subst h
  obtain hkept | ⟨a, v, htarget, hpc⟩ := Effect.apply_pc (effectOf s i) s
  · exact .inl hkept
  · obtain ⟨ha, rfl⟩ := jumpRegister_of_effect htarget
    exact .inr ⟨a, ha, hpc⟩

/-- No instruction touches the memory: a store only owes its WRITE (45_memory_access.md R192). -/
theorem exec_mem {i : Instr} {s t : State} (h : exec i s = .next t) : t.mem = s.mem := by
  rw [exec_next_iff] at h
  subst h
  cases effectOf s i <;> rfl

/-- Only CMP writes the flags (10_state.md R25). -/
theorem exec_flags {i : Instr} {s t : State} (h : exec i s = .next t) :
    s.SameFlags t ∨ ∃ a b, i = .cmp a b ∧ t.cmpA = s.reg a ∧ t.cmpB = s.reg b := by
  obtain ⟨_, _, rfl⟩ | ⟨_, _, rfl⟩ | ⟨_, _, rfl⟩ | ⟨a, b, hi, rfl⟩ | ⟨_, _, rfl, _⟩ | ⟨_, _, rfl⟩ | ⟨_, _, rfl⟩ |
    ⟨rfl, _⟩ | rfl := exec_cases h
  case inr.inr.inr.inl => exact .inr ⟨a, b, hi, rfl, rfl⟩
  all_goals exact .inl ⟨rfl, rfl⟩

/-- Only OUT drives Stdout (10_state.md R30). -/
theorem exec_stdout {i : Instr} {s t : State} (h : exec i s = .next t) :
    t.stdout = s.stdout ∨ ∃ a, i = .out a ∧ t.stdout = some (s.reg a) := by
  obtain ⟨_, _, rfl⟩ | ⟨_, _, rfl⟩ | ⟨_, _, rfl⟩ | ⟨_, _, _, rfl⟩ | ⟨_, _, rfl, _⟩ | ⟨_, _, rfl⟩ | ⟨a, hi, rfl⟩ |
    ⟨rfl, _⟩ | rfl := exec_cases h
  case inr.inr.inr.inr.inr.inr.inl => exact .inr ⟨a, hi, rfl⟩
  all_goals exact .inl rfl

/-- The request that a LOAD or a LOADR puts on the memory-side latches (10_state.md R30). -/
def Instr.requests (i : Instr) (s : State) (p : Addr) : Prop :=
  (∃ r, i = .load r p) ∨ ∃ a d, i = .loadr a d ∧ p = regAddress (s.reg a)

/-- The two memory-side latches change only together, by a LOAD or a LOADR (10_state.md R30). -/
theorem exec_memoryLatches {i : Instr} {s t : State} (h : exec i s = .next t) :
    (t.address = s.address ∧ t.memOut = s.memOut) ∨
      ∃ p, t.address = some (tagged p) ∧ t.memOut = .released ∧ Instr.requests i s p := by
  obtain ⟨_, _, rfl⟩ | ⟨_, _, rfl⟩ | ⟨_, _, rfl⟩ | ⟨_, _, _, rfl⟩ | ⟨p, d, rfl, hi⟩ | ⟨_, _, rfl⟩ | ⟨_, _, rfl⟩ |
    ⟨rfl, _⟩ | rfl := exec_cases h
  case inr.inr.inr.inr.inl =>
    refine .inr ⟨p, rfl, rfl, ?_⟩
    obtain hload | ⟨a, hloadr, hp⟩ := hi
    · exact .inl ⟨d, hload⟩
    · exact .inr ⟨a, d, hloadr, hp⟩
  all_goals exact .inl ⟨rfl, rfl⟩

theorem exec_div_zero {a b d : RegIdx} {s : State} (h : s.reg b = 0) :
    exec (.div a b d) s = .next s.raiseDivideByZero := if_pos h

theorem exec_mod_zero {a b d : RegIdx} {s : State} (h : s.reg b = 0) :
    exec (.mod a b d) s = .next s.raiseDivideByZero := if_pos h

/-- The fault latch of a core that has not faulted is set exactly by a DIV or MOD with a zero divisor
(60_exceptions.md R210). -/
theorem exec_fault {i : Instr} {s t : State} (hf : s.Healthy) (h : exec i s = .next t) :
    (t.fault = none ∨ t.fault = some .divideByZero) ∧ (t.fault = some .divideByZero ↔
      ∃ a b d, (i = .div a b d ∨ i = .mod a b d) ∧ s.reg b = 0) := by
  have hnone : s.fault ≠ some .divideByZero := fun hs => by cases hf.symm.trans hs
  have hset : (∃ a b d, (i = .div a b d ∨ i = .mod a b d) ∧ s.reg b = 0) → t.fault = some .divideByZero := by
    rintro ⟨a, b, d, rfl | rfl, hb⟩
    · rw [exec_div_zero hb] at h
      cases h
      rfl
    · rw [exec_mod_zero hb] at h
      cases h
      rfl
  obtain ⟨_, _, rfl⟩ | ⟨_, _, rfl⟩ | ⟨_, _, rfl⟩ | ⟨_, _, _, rfl⟩ | ⟨_, _, rfl, _⟩ | ⟨_, _, rfl⟩ | ⟨_, _, rfl⟩ |
    ⟨rfl, hzero⟩ | rfl := exec_cases h
  case inr.inr.inr.inr.inr.inr.inr.inl => exact ⟨.inr rfl, fun _ => hzero, hset⟩
  all_goals exact ⟨.inl hf, fun hs => absurd hs hnone, hset⟩

end Sys2Proof.Machine
end

section
/-! PROOF. One instruction on the edge that executes it: the arithmetic and shift results as numbers (41_arithmetic.md,
42_logic_shift.md), the jumps and CMP (43_control.md), the moves (44_move.md), the memory accesses
(45_memory_access.md), IN and OUT (46_io_nop.md), the pseudo-instructions (30_encoding.md R91), and what no instruction
reads. -/

namespace Sys2Proof.Machine

/-! ## `to32`: the pattern of an integer (00_scope.md R6) -/

theorem to32_add (m n : Int) : to32 (m + n) = to32 m + to32 n := BitVec.ofInt_add m n

theorem to32_sub (m n : Int) : to32 (m - n) = to32 m - to32 n := by
  rw [Int.sub_eq_add_neg, to32_add, BitVec.sub_eq_add_neg]
  exact congrArg _ BitVec.ofInt_neg

theorem to32_mul (m n : Int) : to32 (m * n) = to32 m * to32 n := BitVec.ofInt_mul m n

/-- Read as an unsigned number, a word stands for its own pattern. -/
@[simp] theorem to32_toNat (v : Word) : to32 v.toNat = v := by
  rw [to32, BitVec.ofInt_natCast, BitVec.ofNat_toNat, BitVec.setWidth_eq]

/-- Read as a signed number, a word stands for its own pattern. -/
@[simp] theorem to32_toInt (v : Word) : to32 v.toInt = v := BitVec.ofInt_toInt

theorem toInt_ne_zero {v : Word} (h : v ≠ 0) : v.toInt ≠ 0 := fun hv => h (BitVec.eq_of_toInt_eq hv)

/-! ## The arithmetic family -/

/-- SUB on the edge that executes it (R142). -/
theorem exec_sub_eq (a b d : RegIdx) (s : State) :
    exec (.sub a b d) s = .next (s.setReg d (s.reg a - s.reg b)) := rfl

/-- MUL on the edge that executes it (R143). -/
theorem exec_mul_eq (a b d : RegIdx) (s : State) :
    exec (.mul a b d) s = .next (s.setReg d (s.reg a * s.reg b)) := rfl

/-- DIV on the edge that executes it, with a divisor (R144). -/
theorem exec_div_eq {a b d : RegIdx} {s : State} (h : s.reg b ≠ 0) :
    exec (.div a b d) s = .next (s.setReg d (sdiv (s.reg a) (s.reg b))) := if_neg h

/-- MOD on the edge that executes it, with a divisor (R145). -/
theorem exec_mod_eq {a b d : RegIdx} {s : State} (h : s.reg b ≠ 0) :
    exec (.mod a b d) s = .next (s.setReg d (srem (s.reg a) (s.reg b))) := if_neg h

/-- Where the signed division is exact, the quotient is its pattern. -/
theorem sdiv_of_exact {u v : Word} {q : Int} (hv : v ≠ 0) (h : u.toInt = v.toInt * q) : sdiv u v = to32 q := by
  rw [sdiv, h, Int.mul_tdiv_cancel_left q (toInt_ne_zero hv)]

/-- Where the signed division is exact, nothing remains. -/
theorem srem_of_exact {u v : Word} {q : Int} (hv : v ≠ 0) (h : u.toInt = v.toInt * q) : srem u v = 0 := by
  rw [srem, h, Int.mul_tdiv_cancel_left q (toInt_ne_zero hv), Int.sub_self]
  rfl

/-- The quotient of the model is the library's truncating division of words. -/
theorem sdiv_eq (u v : Word) : sdiv u v = u.sdiv v := by
  apply BitVec.eq_of_toInt_eq
  rw [BitVec.toInt_sdiv, sdiv, to32, BitVec.toInt_ofInt]

/-- The remainder of the model is the library's remainder of truncating division. -/
theorem srem_eq (u v : Word) : srem u v = u.srem v := by
  rw [srem, ← Int.tmod_def, ← BitVec.toInt_srem, to32_toInt]

/-- Outside the overflow case the quotient as a signed number is the truncated one (00_scope.md R8). -/
theorem toInt_sdiv_of_no_overflow {u v : Word} (h : ¬ (u = 0x80000000 ∧ v = 0xFFFFFFFF)) :
    (sdiv u v).toInt = u.toInt.tdiv v.toInt := by
  rw [sdiv_eq]
  exact BitVec.toInt_sdiv_of_ne_or_ne u v (not_and_or.mp h)

theorem toInt_srem (u v : Word) : (srem u v).toInt = u.toInt.tmod v.toInt := by
  rw [srem_eq, BitVec.toInt_srem]

/-- Settles O21: with a zero divisor both instructions only set the fault latch. -/
theorem divAndModByZeroSetOnlyTheFaultLatch : Obligations.DivAndModByZeroSetOnlyTheFaultLatch := fun _ _ _ _ hb =>
  ⟨_, exec_div_zero hb, exec_mod_zero hb, rfl, fun _ => rfl, rfl, ⟨rfl, rfl⟩, rfl, rfl, ⟨rfl, rfl, rfl⟩,
    ⟨fun _ => rfl, rfl⟩, rfl, rfl, rfl⟩

/-- Settles O27: each instruction is one register write, `to32` carries sum, difference and product of either reading
to the operation on words, and an exact division is cancelled. -/
theorem arithmeticFamilyWritesOnlyItsDestination : Obligations.ArithmeticFamilyWritesOnlyItsDestination := by
  intro s a b d
  refine ⟨⟨_, _, exec_add_eq a b d s, s.onlyReg_setReg d _, ?addUnsigned, ?addSigned⟩,
    ⟨_, _, exec_sub_eq a b d s, s.onlyReg_setReg d _, ?subUnsigned, ?subSigned⟩,
    ⟨_, _, exec_mul_eq a b d s, s.onlyReg_setReg d _, ?mulUnsigned, ?mulSigned⟩, fun hb => ?division⟩
  case addUnsigned | addSigned => simp [to32_add]
  case subUnsigned | subSigned => simp [to32_sub]
  case mulUnsigned | mulSigned => simp [to32_mul]
  case division =>
    exact ⟨_, _, _, _, exec_div_eq hb, exec_mod_eq hb, s.onlyReg_setReg d _, s.onlyReg_setReg d _,
      fun q hq => ⟨sdiv_of_exact hb hq, srem_of_exact hb hq⟩⟩

/-- The remainder of a dividend that is not positive is not positive. -/
theorem tmod_nonpos_of_nonpos {m : Int} (n : Int) (h : m ≤ 0) : m.tmod n ≤ 0 := by
  have hneg : 0 ≤ (-m).tmod n := Int.tmod_nonneg n (by omega)
  rw [Int.neg_tmod] at hneg
  omega

/-- Settles O28: outside the overflow case quotient and remainder as signed numbers are `Int.tdiv` and `Int.tmod`, whose
division identity, bound and signs are the library's; the overflow case is one closed pair of words. -/
theorem divTruncatesAndModHasDividendSign : Obligations.DivTruncatesAndModHasDividendSign := by
  intro s a b d hb
  refine ⟨_, _, _, _, exec_div_eq hb, exec_mod_eq hb, s.onlyReg_setReg d _, s.onlyReg_setReg d _, ?overflow,
    fun hno => ?truncated⟩
  case overflow =>
    rintro ⟨ha, hb⟩
    rw [ha, hb]
    decide
  case truncated =>
    rw [toInt_sdiv_of_no_overflow hno, toInt_srem]
    refine ⟨(Int.mul_tdiv_add_tmod _ _).symm, ?_, Int.tmod_nonneg _, tmod_nonpos_of_nonpos _⟩
    rw [Int.natAbs_tmod]
    exact Nat.mod_lt _ (Int.natAbs_pos.mpr (toInt_ne_zero hb))

/-! ## Shifts, for every count -/

/-- Settles O30: the shift amount is the count modulo 32 (`shamt_eq`), and a shift of words is the shift of their
numbers. -/
theorem shiftsUseLowFiveBitsOfCount : Obligations.ShiftsUseLowFiveBitsOfCount := by
  intro s a b d
  refine ⟨⟨_, _, exec_shl_eq a b d s, s.onlyReg_setReg d _, ?left⟩,
    ⟨_, _, exec_shr_eq a b d s, s.onlyReg_setReg d _, ?right⟩⟩
  case left => rw [BitVec.toNat_shiftLeft, shamt_eq, Nat.shiftLeft_eq]
  case right => rw [BitVec.toNat_ushiftRight, shamt_eq, Nat.shiftRight_eq_div_pow]

/-! ## CMP and the jumps -/

/-- CMP on the edge that executes it (R162). -/
theorem exec_cmp_eq (a b : RegIdx) (s : State) : exec (.cmp a b) s = .next (s.latchFlags (s.reg a) (s.reg b)) := rfl

/-- JMP on the edge that executes it (R161). -/
theorem exec_jmp_eq (a : RegIdx) (s : State) : exec (.jmp a) s = .next (s.setPc (clamp16 (s.reg a))) := rfl

/-- Setting `pc` is the whole effect of a jump. -/
theorem State.onlyPc_setPc (s : State) (p : Addr) : s.OnlyPc (s.setPc p) p :=
  ⟨rfl, fun _ => rfl, ⟨rfl, rfl⟩, rfl, ⟨rfl, rfl, rfl⟩, ⟨fun _ => rfl, rfl⟩, ⟨rfl, rfl⟩, rfl, rfl, rfl⟩

/-- A jump on a decided relation goes to the clamped value if the relation holds and leaves `pc` alone if not. -/
theorem State.onlyPc_jumpIf (s : State) (P : Prop) [Decidable P] (v : Word) :
    s.OnlyPc (s.jumpIf (decide P) v) (if P then clamp16 v else s.pc) := by
  simpa only [State.jumpIf, decide_eq_true_eq] using s.onlyPc_setPc (if P then clamp16 v else s.pc)

/-- Settles O31: CMP is one latching of the flags. -/
theorem cmpLatchesBothRegisters : Obligations.CmpLatchesBothRegisters := fun s a b =>
  ⟨_, exec_cmp_eq a b s, rfl, rfl, fun _ => rfl, rfl, rfl, ⟨rfl, rfl, rfl⟩, ⟨fun _ => rfl, rfl⟩, ⟨rfl, rfl⟩, rfl, rfl,
    rfl⟩

/-- Settles O33: JMP is one write of `pc`, and the clamp as a number is `clamp16_toNat`. -/
theorem jmpGoesToClampedRegister : Obligations.JmpGoesToClampedRegister := fun s a =>
  ⟨_, _, exec_jmp_eq a s, s.onlyPc_setPc _, clamp16_toNat (s.reg a)⟩

/-- Settles O34: each condition of the flags is its relation decided (`State.onlyPc_jumpIf`). -/
theorem conditionalJumpsCompareTheFlags : Obligations.ConditionalJumpsCompareTheFlags := by
  intro s a
  have hne := s.onlyPc_jumpIf (s.cmpA ≠ s.cmpB) (s.reg a)
  rw [ite_not] at hne
  exact ⟨⟨_, rfl, s.onlyPc_jumpIf (s.cmpA.toInt > s.cmpB.toInt) _⟩,
    ⟨_, rfl, s.onlyPc_jumpIf (s.cmpA.toInt ≥ s.cmpB.toInt) _⟩,
    ⟨_, rfl, s.onlyPc_jumpIf (s.cmpA.toInt < s.cmpB.toInt) _⟩,
    ⟨_, rfl, s.onlyPc_jumpIf (s.cmpA.toInt ≤ s.cmpB.toInt) _⟩,
    ⟨_, rfl, s.onlyPc_jumpIf (s.cmpA = s.cmpB) _⟩, ⟨_, rfl, hne⟩, clamp16_toNat (s.reg a)⟩

/-! ## The moves -/

/-- LOADIMM on the edge that executes it (R180). -/
theorem exec_loadimm_eq (r : RegIdx) (imm : BitVec 16) (m : BitVec 4) (s : State) :
    exec (.loadimm r imm m) s = .next (s.setReg r (s.reg r ||| immOperand imm m)) := rfl

/-- MOV on the edge that executes it (R181). -/
theorem exec_mov_eq (a d : RegIdx) (s : State) : exec (.mov a d) s = .next (s.setReg d (s.reg a)) := rfl

/-- The bits of LOADIMM's operand: the immediate in the half that the marker selects, zeros in the other
(30_encoding.md R85). -/
theorem getLsbD_immOperand (imm : BitVec 16) (m : BitVec 4) {k : Nat} (hk : k < 32) :
    (immOperand imm m).getLsbD k =
      if m = 0xF then decide (16 ≤ k) && imm.getLsbD (k - 16) else decide (k < 16) && imm.getLsbD k := by
  unfold immOperand
  split
  · have hhalf : (!decide (k < 16)) = decide (16 ≤ k) := by rw [← decide_not, decide_eq_decide, Nat.not_lt]
    have hlt : k - 16 < 32 := by omega
    rw [BitVec.getLsbD_shiftLeft, BitVec.getLsbD_setWidth, decide_eq_true hk, decide_eq_true hlt, Bool.true_and,
      Bool.true_and, hhalf]
  · rw [BitVec.getLsbD_setWidth, decide_eq_true hk, Bool.true_and]
    by_cases hlow : k < 16
    · rw [decide_eq_true hlow, Bool.true_and]
    · rw [decide_eq_false hlow, Bool.false_and, BitVec.getLsbD_of_ge imm k (Nat.le_of_not_lt hlow)]

/-- Settles O38: LOADIMM is one register write, an OR with the operand of `getLsbD_immOperand`. -/
theorem loadimmMergesHalfBitByBit : Obligations.LoadimmMergesHalfBitByBit := by
  intro s r imm m
  refine ⟨_, _, exec_loadimm_eq r imm m s, s.onlyReg_setReg r _, fun k hk => ?_⟩
  rw [BitVec.getLsbD_or, getLsbD_immOperand imm m hk]

/-- Settles O39: MOV is one register write. -/
theorem movCopiesTheRegister : Obligations.MovCopiesTheRegister := fun s a d =>
  ⟨_, exec_mov_eq a d s, s.onlyReg_setReg d _⟩

/-! ## The memory accesses -/

/-- LOADR on the edge that executes it (R193). -/
theorem exec_loadr_eq (a d : RegIdx) (s : State) :
    exec (.loadr a d) s = .next (s.startLoad (regAddress (s.reg a)) d) := rfl

/-- STORE on the edge that executes it (R192). -/
theorem exec_store_eq (r : RegIdx) (imm : Addr) (s : State) :
    exec (.store r imm) s = .next (s.startStore imm (s.reg r)) := rfl

/-- STORER on the edge that executes it (R194). -/
theorem exec_storer_eq (a b : RegIdx) (s : State) :
    exec (.storer a b) s = .next (s.startStore (regAddress (s.reg a)) (s.reg b)) := rfl

/-- A register's numeric address is its value modulo 65536 (R190). -/
theorem regAddress_toNat (v : Word) : (regAddress v).toNat = v.toNat % 65536 := by
  rw [regAddress, BitVec.extractLsb'_toNat, Nat.shiftRight_zero]

/-- Settles O41: both are the first half of a load; the tagged port value as a number is `tagged_toNat`. -/
theorem loadsRequestTheWordAndOweTheRegister : Obligations.LoadsRequestTheWordAndOweTheRegister := by
  intro s a d imm
  have hloadr : (tagged (regAddress (s.reg a))).toNat = 0x10000 + (s.reg a).toNat % 65536 := by
    rw [tagged_toNat, regAddress_toNat]
  exact ⟨⟨_, _, exec_load_eq d imm s, rfl, tagged_toNat imm, rfl, rfl, fun _ => rfl, rfl, ⟨rfl, rfl⟩, rfl,
      ⟨fun _ => rfl, rfl⟩, ⟨rfl, rfl⟩, rfl, rfl, rfl⟩,
    ⟨_, _, exec_loadr_eq a d s, rfl, hloadr, rfl, rfl, fun _ => rfl, rfl, ⟨rfl, rfl⟩, rfl, ⟨fun _ => rfl, rfl⟩,
      ⟨rfl, rfl⟩, rfl, rfl, rfl⟩⟩

/-- Settles O42: both only owe a WRITE of the address and the value of now. -/
theorem storesOweOneWrite : Obligations.StoresOweOneWrite := fun s a b imm =>
  ⟨⟨_, exec_store_eq b imm s, rfl, fun _ => rfl, rfl, ⟨rfl, rfl⟩, ⟨rfl, rfl, rfl⟩, ⟨fun _ => rfl, rfl⟩, ⟨rfl, rfl⟩, rfl,
      rfl, rfl⟩,
    ⟨_, _, exec_storer_eq a b s, regAddress_toNat (s.reg a), rfl, fun _ => rfl, rfl, ⟨rfl, rfl⟩, ⟨rfl, rfl, rfl⟩,
      ⟨fun _ => rfl, rfl⟩, ⟨rfl, rfl⟩, rfl, rfl, rfl⟩⟩

/-! ## IN and OUT -/

/-- IN on the edge that executes it (R200). -/
theorem exec_inp_eq (d : RegIdx) (s : State) :
    exec (.inp d) s = .next ((s.countSample s.input.stdin).setReg d (s.sampled s.input.stdin)) := rfl

/-- IN takes a known Stdin (R200). -/
theorem exec_inp_known {s : State} {v : Word} (d : RegIdx) (h : s.input.stdin = some v) :
    exec (.inp d) s = .next (s.setReg d v) := by
  rw [exec_inp_eq, h, State.countSample_some, State.sampled_some]

/-- IN takes a draw, and uses it up, where Stdin is not known (20_memory.md R64). -/
theorem exec_inp_unknown {s : State} (d : RegIdx) (h : s.input.stdin = none) :
    exec (.inp d) s = .next ((s.countSample none).setReg d (Config.draw s.draws)) := by
  rw [exec_inp_eq, h, State.sampled_none]

/-- OUT on the edge that executes it (R201). -/
theorem exec_out_eq (a : RegIdx) (s : State) : exec (.out a) s = .next (s.driveStdout (s.reg a)) := rfl

/-- Settles O46: IN is one register write, of the known Stdin or of the draw that is counted. -/
theorem inTakesStdinOrADraw : Obligations.InTakesStdinOrADraw := by
  intro s d
  refine ⟨fun v h => ⟨_, exec_inp_known d h, s.onlyReg_setReg d v⟩, fun h => ⟨_, exec_inp_unknown d h, ?_⟩⟩
  exact ⟨State.regBecomes_setReg (fun _ => rfl) d _, rfl, rfl, ⟨rfl, rfl⟩, rfl, ⟨rfl, rfl, rfl⟩, ⟨fun _ => rfl, rfl⟩,
    ⟨rfl, rfl⟩, rfl, rfl⟩

/-- Settles O47: OUT is one drive of Stdout. -/
theorem outDrivesStdout : Obligations.OutDrivesStdout := fun s a =>
  ⟨_, exec_out_eq a s, rfl, rfl, rfl, fun _ => rfl, rfl, ⟨rfl, rfl⟩, rfl, ⟨fun _ => rfl, rfl⟩, ⟨rfl, rfl⟩, rfl, rfl,
    rfl⟩

/-! ## The pseudo-instructions -/

/-- Of two writes of one register the second stands. -/
theorem State.setReg_setReg (s : State) (d : RegIdx) (u v : Word) : (s.setReg d u).setReg d v = s.setReg d v := by
  simp only [State.setReg, Vector.set_set]

/-- CLR clears whatever the register held (30_encoding.md R91). -/
theorem exec_clr (d : RegIdx) (s : State) : exec (.xor d d d) s = .next (s.setReg d 0) := by
  rw [exec_xor_eq, BitVec.xor_self]
  rfl

/-- The two halves of a word, each as LOADIMM's operand, make up the word. -/
theorem immOperand_halves (v : Word) :
    immOperand (v.extractLsb' 0 16) 0x0 ||| immOperand (v.extractLsb' 16 16) 0xF = v := by
  apply BitVec.eq_of_getLsbD_eq
  intro k hk
  rw [BitVec.getLsbD_or, getLsbD_immOperand _ _ hk, getLsbD_immOperand _ _ hk, if_neg (by decide), if_pos rfl,
    BitVec.getLsbD_extractLsb', BitVec.getLsbD_extractLsb']
  by_cases hlow : k < 16
  · simp [hlow, Nat.not_le.mpr hlow]
  · have hback : 16 + (k - 16) = k := by omega
    have hlt : k - 16 < 16 := by omega
    simp [hlow, Nat.le_of_not_lt hlow, hback, hlt]

/-- LI loads the word whatever the register held (30_encoding.md R91). -/
theorem execAll_li (d : RegIdx) (v : Word) (s : State) :
    execAll (Pseudo.expand (.li d v)) s = .next (s.setReg d v) := by
  simp only [Pseudo.expand, execAll, exec_clr, exec_loadimm_eq, State.reg_setReg, if_true, State.setReg_setReg]
  rw [BitVec.or_assoc, immOperand_halves]
  simp

/-- Settles O51: each expansion is run, and gives one register write or none. -/
theorem pseudoInstructionsDoWhatTheySay : Obligations.PseudoInstructionsDoWhatTheySay := by
  intro s d v
  refine ⟨rfl, ⟨_, ?clr, s.onlyReg_setReg d 0⟩, ⟨_, execAll_li d v s, s.onlyReg_setReg d v⟩⟩
  simp only [Pseudo.expand, execAll, exec_clr]

/-! ## What every instruction leaves, and what none reads -/

/-- Settles O35: `pc` takes no part in finding the effect, and none in applying it but to be kept or overwritten. -/
theorem noInstructionReadsPc : Obligations.NoInstructionReadsPc := by
  intro i s p
  refine ⟨_, _, exec_eq i s, exec_eq i (s.setPc p), ?_⟩
  rw [effectOf_setPc]
  obtain ⟨hkept, hother⟩ | hsame := (effectOf s i).apply_setPc s p
  · rw [hother]
    exact ⟨fun _ => rfl, ⟨rfl, rfl⟩, rfl, ⟨rfl, rfl, rfl⟩, ⟨fun _ => rfl, rfl⟩, ⟨rfl, rfl⟩, ⟨rfl, rfl, rfl⟩,
      .inr ⟨hkept, rfl⟩⟩
  · rw [hsame]
    exact ⟨fun _ => rfl, ⟨rfl, rfl⟩, rfl, ⟨rfl, rfl, rfl⟩, ⟨fun _ => rfl, rfl⟩, ⟨rfl, rfl⟩, ⟨rfl, rfl, rfl⟩, .inl rfl⟩

/-- Settles O36: where no conditional jump is executed the flags take no part in finding the effect, and none in
applying it but to be kept or overwritten. -/
theorem onlyConditionalJumpsReadTheFlags : Obligations.OnlyConditionalJumpsReadTheFlags := by
  intro i s a b hi
  refine ⟨_, _, exec_eq i s, exec_eq i (s.latchFlags a b), ?_⟩
  rw [effectOf_latchFlags s a b hi]
  obtain ⟨hkept, hother⟩ | hsame := (effectOf s i).apply_latchFlags s a b
  · rw [hother]
    exact ⟨fun _ => rfl, rfl, rfl, ⟨rfl, rfl, rfl⟩, ⟨fun _ => rfl, rfl⟩, ⟨rfl, rfl⟩, ⟨rfl, rfl, rfl⟩,
      .inr ⟨hkept, rfl, rfl⟩⟩
  · rw [hsame]
    exact ⟨fun _ => rfl, rfl, rfl, ⟨rfl, rfl, rfl⟩, ⟨fun _ => rfl, rfl⟩, ⟨rfl, rfl⟩, ⟨rfl, rfl, rfl⟩, .inl ⟨rfl, rfl⟩⟩

end Sys2Proof.Machine
end

section
/-! SUPPORT. One evaluation with Reset at any level (40_cycle.md R110, R111): the state in which an edge acts, what each
kind of edge gives from it, and the six things an evaluation can be. -/

namespace Sys2Proof.Machine

/-! ## The state in which an edge acts -/

/-- `s` with the inputs presented, the clear done if Reset is asserted, and the Clock level latched: where an evaluation
without an edge ends, and where an edge starts from (40_cycle.md R111, R112). Irreducible, since later proofs read it
through the lemmas on its fields. -/
@[irreducible] def State.atEdge (s : State) (i : Inputs) : State := (s.present i).applyReset.latchClock

section
variable (s : State) (i : Inputs)

theorem State.atEdge_eq : s.atEdge i = (s.present i).applyReset.latchClock := by rw [State.atEdge]

@[simp] theorem State.atEdge_reg (r : RegIdx) : (s.atEdge i).reg r = s.regSeen i r := by
  rw [State.atEdge_eq]
  exact (s.present i).applyReset_reg r
@[simp] theorem State.atEdge_pc : (s.atEdge i).pc = if i.reset then 0 else s.pc := by
  rw [State.atEdge_eq]
  exact (s.present i).applyReset_pc
@[simp] theorem State.atEdge_cmpA : (s.atEdge i).cmpA = s.cmpA := by simp [State.atEdge]
@[simp] theorem State.atEdge_cmpB : (s.atEdge i).cmpB = s.cmpB := by simp [State.atEdge]
@[simp] theorem State.atEdge_queue : (s.atEdge i).queue = s.queue := by simp [State.atEdge]
@[simp] theorem State.atEdge_clkPrev : (s.atEdge i).clkPrev = i.clock := by simp [State.atEdge]
@[simp] theorem State.atEdge_address : (s.atEdge i).address = s.address := by simp [State.atEdge]
@[simp] theorem State.atEdge_memOut : (s.atEdge i).memOut = s.memOut := by simp [State.atEdge]
@[simp] theorem State.atEdge_stdout : (s.atEdge i).stdout = s.stdout := by simp [State.atEdge]
@[simp] theorem State.atEdge_fault : (s.atEdge i).fault = s.fault := by simp [State.atEdge]
@[simp] theorem State.atEdge_mem : (s.atEdge i).mem = s.mem := by simp [State.atEdge]
@[simp] theorem State.atEdge_input : (s.atEdge i).input = i := by simp [State.atEdge]
@[simp] theorem State.atEdge_stimuli : (s.atEdge i).stimuli = s.stimuli := by simp [State.atEdge]
@[simp] theorem State.atEdge_draws : (s.atEdge i).draws = s.draws := by simp [State.atEdge]
@[simp] theorem State.atEdge_memWord (a : Addr) : (s.atEdge i).memWord a = s.memWord a := by simp [State.atEdge]

theorem State.sameFlags_atEdge : s.SameFlags (s.atEdge i) := ⟨s.atEdge_cmpA i, s.atEdge_cmpB i⟩

theorem State.samePorts_atEdge : s.SamePorts (s.atEdge i) :=
  ⟨s.atEdge_address i, s.atEdge_memOut i, s.atEdge_stdout i⟩

theorem State.sameMemory_atEdge : s.SameMemory (s.atEdge i) := ⟨s.atEdge_memWord i, s.atEdge_mem i⟩

end

/-- With Reset low an edge starts from the state as it stands, in the surroundings of the evaluation. -/
theorem State.atEdge_low {s : State} {i : Inputs} (h : i.reset = false) :
    s.atEdge i = s.surround i.clock i s.stimuli := by
  have hlow : (s.present i).applyReset = s.present i := applyReset_low h
  rw [State.atEdge_eq, hlow]
  rfl

/-- With Reset low the registers are seen as they stand. -/
theorem State.regSeen_low {s : State} {i : Inputs} (h : i.reset = false) (r : RegIdx) : s.regSeen i r = s.reg r := by
  simp [State.regSeen, h]

/-- With Reset high every register is seen as 0. -/
theorem State.regSeen_high {s : State} {i : Inputs} (h : i.reset = true) (r : RegIdx) : s.regSeen i r = 0 := by
  simp [State.regSeen, h]

/-- A known word on the line is the word sampled. -/
theorem State.wordSeen_known {s : State} {i : Inputs} {w : Word} (h : i.memory = some w) : s.wordSeen i = w := by
  simp [State.wordSeen, h]

/-! ## What each evaluation gives -/

/-- A faulted core does nothing (R121). -/
theorem eval_faulted {s : State} {i : Inputs} (hf : ¬ s.Healthy) : eval s i = .next (s.present i) := by
  obtain ⟨f, hfault⟩ := Option.ne_none_iff_exists'.mp hf
  exact evaluate_faulted (s := s.present i) hfault

/-- An edge acts on the state `atEdge`. -/
theorem eval_rise {s : State} {i : Inputs} (hf : s.Healthy) (hr : s.RisesOn i) :
    eval s i = (s.atEdge i).risingEdge := by
  rw [State.atEdge_eq]
  exact evaluate_rising (s := s.present i) hf ((s.rising_present i).mpr hr)

/-- Without an edge an evaluation ends in the state `atEdge`. -/
theorem eval_still {s : State} {i : Inputs} (hf : s.Healthy) (hr : ¬ s.RisesOn i) : eval s i = .next (s.atEdge i) := by
  rw [State.atEdge_eq]
  exact eval_no_edge hf hr

/-- What the head task does on an edge, Reset asserted or not. -/
theorem eval_task {s : State} {i : Inputs} {k : Task} {rest : List Task} (hf : s.Healthy) (hr : s.RisesOn i)
    (hq : s.queue = k :: rest) : eval s i = ((s.atEdge i).setQueue rest).runTask k := by
  rw [eval_rise hf hr, risingEdge_cons ((s.atEdge_queue i).trans hq)]

/-- The FETCH task samples the word that the inputs show, or a draw (R116). -/
theorem runFetch_atEdge (s : State) (i : Inputs) (rest : List Task) :
    ((s.atEdge i).setQueue rest).runFetch =
      exec (decode (s.wordSeen i)) (((s.atEdge i).setQueue rest).countSample i.memory) := by
  simp [State.runFetch, State.sampled, State.wordSeen]

/-- The SET_REGISTER task samples the word that the inputs show, or a draw (R118). -/
theorem runSetRegister_atEdge (s : State) (i : Inputs) (r : RegIdx) (rest : List Task) :
    ((s.atEdge i).setQueue rest).runSetRegister r =
      (((s.atEdge i).setQueue rest).countSample i.memory).setReg r (s.wordSeen i) := by
  simp [State.runSetRegister, State.sampled, State.wordSeen]

/-- An edge with a FETCH at the head executes the decoded word (R116), Reset asserted or not. -/
theorem eval_fetch {s : State} {i : Inputs} {rest : List Task} (hf : s.Healthy) (hr : s.RisesOn i)
    (hq : s.queue = .fetch :: rest) :
    eval s i = exec (decode (s.wordSeen i)) (((s.atEdge i).setQueue rest).countSample i.memory) := by
  rw [eval_task hf hr hq, ← runFetch_atEdge]
  rfl

/-- An edge with a SET_REGISTER at the head (R118), Reset asserted or not. -/
theorem eval_setRegister {s : State} {i : Inputs} {r : RegIdx} {rest : List Task} (hf : s.Healthy)
    (hr : s.RisesOn i) (hq : s.queue = .setRegister r :: rest) :
    eval s i = .next ((((s.atEdge i).setQueue rest).countSample i.memory).setReg r (s.wordSeen i)) := by
  rw [eval_task hf hr hq, ← runSetRegister_atEdge]
  rfl

/-- The six things an evaluation from `s` to `t` on the inputs `i` can be (R110 to R121). -/
inductive Evaluation (s t : State) (i : Inputs) : Prop where
  | faulted (hf : ¬ s.Healthy) (ht : t = s.present i)
  | noEdge (hf : s.Healthy) (hr : ¬ s.RisesOn i) (ht : t = s.atEdge i)
  | fetchIssue (hf : s.Healthy) (hr : s.RisesOn i) (hq : s.queue = []) (ht : t = (s.atEdge i).fetchIssue)
  | fetch (rest : List Task) (hf : s.Healthy) (hr : s.RisesOn i) (hq : s.queue = .fetch :: rest)
      (hexec : exec (decode (s.wordSeen i)) (((s.atEdge i).setQueue rest).countSample i.memory) = .next t)
  | write (a : Addr) (v : Word) (rest : List Task) (hf : s.Healthy) (hr : s.RisesOn i)
      (hq : s.queue = .write a v :: rest) (ht : t = ((s.atEdge i).setQueue rest).runWrite a v)
  | setRegister (r : RegIdx) (rest : List Task) (hf : s.Healthy) (hr : s.RisesOn i)
      (hq : s.queue = .setRegister r :: rest)
      (ht : t = (((s.atEdge i).setQueue rest).countSample i.memory).setReg r (s.wordSeen i))

/-- Every evaluation is one of the six. -/
theorem evaluation_of_eval {s t : State} {i : Inputs} (h : eval s i = .next t) : Evaluation s t i := by
  obtain ⟨hfault, rfl⟩ | ⟨hf, hrise, rfl⟩ | ⟨hf, hrise, hedge⟩ := evaluate_cases h
  · exact .faulted hfault rfl
  · exact .noEdge hf (fun hr => by simp [(s.rising_present i).mpr hr] at hrise) (s.atEdge_eq i).symm
  · have hr : s.RisesOn i := (s.rising_present i).mp hrise
    rw [← State.atEdge_eq] at hedge
    obtain ⟨hq, rfl⟩ | ⟨rest, hq, hfetch⟩ | ⟨a, v, rest, hq, rfl⟩ | ⟨r, rest, hq, rfl⟩ := risingEdge_cases hedge
    all_goals rw [State.atEdge_queue] at hq
    · exact .fetchIssue hf hr hq rfl
    · exact .fetch rest hf hr hq ((runFetch_atEdge s i rest).symm.trans hfetch)
    · exact .write a v rest hf hr hq rfl
    · exact .setRegister r rest hf hr hq (runSetRegister_atEdge s i r rest)

/-- Every evaluation answers a next state. -/
theorem eval_answers (s : State) (i : Inputs) : ∃ t, eval s i = .next t := by
  by_cases hf : s.Healthy
  · by_cases hr : s.RisesOn i
    · cases hq : s.queue with
      | nil => exact ⟨_, (eval_rise hf hr).trans (risingEdge_nil ((s.atEdge_queue i).trans hq))⟩
      | cons k rest =>
        cases k with
        | fetch => exact eval_fetch hf hr hq ▸ exec_answers _ _
        | write a v => exact ⟨_, eval_task hf hr hq⟩
        | setRegister r => exact ⟨_, eval_task hf hr hq⟩
    · exact ⟨_, eval_still hf hr⟩
  · exact ⟨_, eval_faulted hf⟩

/-- A step is an evaluation of the inputs that the environment presents next. -/
theorem step_eq_eval (s : State) : step s = eval s.dropStimulus s.nextInputs := rfl

end Sys2Proof.Machine
end

section
/-! PROOF. What any evaluation can change, field by field (10_state.md R22 to R31): each statement goes through the six
things an evaluation can be, and through the facts about one execution where a FETCH is at the head. -/

namespace Sys2Proof.Machine

/-- Settles O6: execution is total and its effect enqueues at most one task; a step is an evaluation, which answers. -/
theorem everyInstructionCompletesWithAtMostOneTask : Obligations.EveryInstructionCompletesWithAtMostOneTask := by
  refine ⟨fun i s => ?_, fun s => eval_answers _ _⟩
  obtain ⟨t, ht⟩ := exec_answers i s
  obtain ⟨added, hqueue, hlength, hfetch⟩ := exec_queue ht
  exact ⟨t, added, ht, hqueue, hlength, hfetch⟩

/-- Settles O19: a faulted core is left as it is, whatever the inputs presented. -/
theorem faultIsAbsorbing : Obligations.FaultIsAbsorbing := fun _ _ hf =>
  ⟨_, eval_faulted hf, ⟨rfl, rfl, ⟨rfl, rfl⟩, rfl, ⟨rfl, rfl, rfl⟩, rfl, rfl⟩, ⟨fun _ => rfl, rfl⟩, rfl⟩

/-- Settles O20: only an execution can set the latch, and there `exec_fault` says when. -/
theorem onlyDivAndModByZeroFault : Obligations.OnlyDivAndModByZeroFault := by
  intro s i hf
  obtain ⟨t, h⟩ := eval_answers s i
  have hnone : s.fault = none := hf
  refine ⟨t, h, ?_⟩
  cases evaluation_of_eval h with
  | faulted hfault ht => exact absurd hf hfault
  | noEdge _ hr ht => simp [ht, hnone, hr]
  | fetchIssue _ hr hq ht => simp [ht, State.fetchIssue_eq, hnone, hq]
  | fetch rest _ hr hq hexec =>
    have hstart : (((s.atEdge i).setQueue rest).countSample i.memory).Healthy := by simpa [State.Healthy] using hnone
    simpa [hr, hq] using exec_fault hstart hexec
  | write a v rest _ hr hq ht => simp [ht, State.runWrite_eq, hnone, hq]
  | setRegister r rest _ hr hq ht => simp [ht, hnone, hq]

/-- Settles O32: only an execution can write the flags, and there only CMP does, from the registers as seen. -/
theorem onlyCmpChangesTheFlags : Obligations.OnlyCmpChangesTheFlags := by
  intro s t i h
  cases evaluation_of_eval h with
  | faulted _ ht => subst ht; exact .inl ⟨rfl, rfl⟩
  | noEdge _ _ ht => subst ht; exact .inl (s.sameFlags_atEdge i)
  | fetchIssue _ _ _ ht => subst ht; exact .inl (s.sameFlags_atEdge i)
  | fetch rest hf hr hq hexec =>
    obtain ⟨hA, hB⟩ | ⟨a, b, hcmp, hA, hB⟩ := exec_flags hexec
    · exact .inl ⟨by simpa using hA, by simpa using hB⟩
    · exact .inr ⟨hf, hr, ⟨rest, hq⟩, a, b, hcmp, by simpa using hA, by simpa using hB⟩
  | write _ _ _ _ _ _ ht => subst ht; exact .inl (s.sameFlags_atEdge i)
  | setRegister _ _ _ _ _ ht => subst ht; exact .inl (s.sameFlags_atEdge i)

/-- Settles O37: apart from a fetch issue only an execution moves `pc`, and there only a jump does. -/
theorem onlyFetchJumpAndResetChangePc : Obligations.OnlyFetchJumpAndResetChangePc := by
  intro s t i hf h
  cases evaluation_of_eval h with
  | faulted hfault _ => exact absurd hf hfault
  | noEdge _ _ ht => subst ht; exact .inl (s.atEdge_pc i)
  | fetchIssue _ hr hq ht =>
    refine .inr (.inl ⟨hr, hq, ?_⟩)
    subst ht
    rw [State.fetchIssue_eq, satinc16_toNat, State.atEdge_pc]
    split <;> rfl
  | fetch rest _ hr hq hexec =>
    obtain hpc | ⟨a, ha, hpc⟩ := exec_pc hexec
    · exact .inl (by simpa using hpc)
    · refine .inr (.inr ⟨hr, ⟨rest, hq⟩, a, ha, ?_⟩)
      rw [hpc, clamp16_toNat]
      simp
  | write _ _ _ _ _ _ ht => subst ht; exact .inl (s.atEdge_pc i)
  | setRegister _ _ _ _ _ ht => subst ht; exact .inl (s.atEdge_pc i)

/-- Settles O40: apart from SET_REGISTER only an execution changes a register as seen, and there only its
destination. -/
theorem onlyDestinationRegistersChange : Obligations.OnlyDestinationRegistersChange := by
  intro s t i r hf h hne
  cases evaluation_of_eval h with
  | faulted hfault _ => exact absurd hf hfault
  | noEdge _ _ ht => subst ht; exact absurd (s.atEdge_reg i r) hne
  | fetchIssue _ _ _ ht => subst ht; exact absurd (s.atEdge_reg i r) hne
  | fetch rest _ hr hq hexec => exact ⟨hr, .inr ⟨⟨rest, hq⟩, exec_reg hexec (by simpa using hne)⟩⟩
  | write _ _ _ _ _ _ ht => subst ht; exact absurd (s.atEdge_reg i r) hne
  | setRegister q rest _ hr hq ht =>
    have hqr : r = q := by
      by_contra hother
      exact hne (by simp [ht, hother])
    exact ⟨hr, .inl ⟨rest, hqr ▸ hq⟩⟩

/-- The WRITE task stores its value at its address and leaves every other word (20_memory.md R58 b). -/
theorem State.wordBecomes_runWrite {s t : State} (h : s.SameMemory t) (a : Addr) (v : Word) :
    s.WordBecomes (t.runWrite a v) a v := by
  obtain ⟨hword, _⟩ := h
  refine ⟨by simp [State.runWrite], fun b hb => ?_⟩
  simp [State.runWrite, hb, hword b]

/-- Settles O43: no execution touches the memory (`exec_mem`), and the one task that does stores one word. -/
theorem onlyTheWriteTaskChangesMemory : Obligations.OnlyTheWriteTaskChangesMemory := by
  refine ⟨fun s t i h => ?_, fun s i a v rest hf hr hq => ?_⟩
  · cases evaluation_of_eval h with
    | faulted _ ht => subst ht; exact .inl ⟨fun _ => rfl, rfl⟩
    | noEdge _ _ ht => subst ht; exact .inl (s.sameMemory_atEdge i)
    | fetchIssue _ _ _ ht => subst ht; exact .inl (s.sameMemory_atEdge i)
    | fetch rest _ _ _ hexec =>
      have hmem : t.mem = s.mem := by simpa using exec_mem hexec
      exact .inl ⟨State.memWord_congr hmem, hmem⟩
    | write a v rest hf hr hq ht =>
      subst ht
      exact .inr ⟨hf, hr, a, v, rest, hq, State.wordBecomes_runWrite (s.sameMemory_atEdge i) a v⟩
    | setRegister _ _ _ _ _ ht => subst ht; exact .inl (s.sameMemory_atEdge i)
  · exact ⟨_, eval_task hf hr hq, State.wordBecomes_runWrite (s.sameMemory_atEdge i) a v⟩

/-- Settles O48: apart from a fetch issue and a WRITE only an execution moves a latch, and there only OUT moves Stdout
and only LOAD and LOADR the other two. -/
theorem latchesChangeOnlyByTheirAssertions : Obligations.LatchesChangeOnlyByTheirAssertions := by
  intro s t i h
  cases evaluation_of_eval h with
  | faulted _ ht => subst ht; exact ⟨.inl rfl, .inl ⟨rfl, rfl⟩⟩
  | noEdge _ _ ht => subst ht; exact ⟨.inl (s.atEdge_stdout i), .inl ⟨s.atEdge_address i, s.atEdge_memOut i⟩⟩
  | fetchIssue _ hr hq ht =>
    subst ht
    exact ⟨.inl (s.atEdge_stdout i), .inr (.inl ⟨hr, hq, rfl, by simp [State.fetchIssue_eq]⟩)⟩
  | fetch rest _ hr hq hexec =>
    constructor
    · obtain hkept | ⟨a, hout, hvalue⟩ := exec_stdout hexec
      · exact .inl (by simpa using hkept)
      · exact .inr ⟨hr, ⟨rest, hq⟩, a, hout, by simpa using hvalue⟩
    · obtain ⟨hA, hM⟩ | ⟨p, hA, hM, ⟨r, hload⟩ | ⟨a, d, hloadr, hp⟩⟩ := exec_memoryLatches hexec
      · exact .inl ⟨by simpa using hA, by simpa using hM⟩
      · exact .inr (.inr (.inl ⟨hr, ⟨rest, hq⟩, hM, .inl ⟨r, p, hload, hA⟩⟩))
      · exact .inr (.inr (.inl ⟨hr, ⟨rest, hq⟩, hM, .inr ⟨a, d, hloadr, by simpa [hp] using hA⟩⟩))
  | write a v rest _ hr hq ht =>
    subst ht
    exact ⟨.inl (s.atEdge_stdout i), .inr (.inr (.inr ⟨hr, a, v, rest, hq, rfl, rfl⟩))⟩
  | setRegister _ _ _ _ _ ht =>
    subst ht
    exact ⟨.inl (s.atEdge_stdout i), .inl ⟨s.atEdge_address i, s.atEdge_memOut i⟩⟩

end Sys2Proof.Machine
end

section
/-! PROOF. The tasks and Reset (40_cycle.md R111, R114 to R118; 70_reset_and_hazards.md R243, R244): one edge performs
one task, a sampled line that carries nothing gives a draw, and Reset clears first and stops nothing. -/

namespace Sys2Proof.Machine

/-! ## The tasks -/

/-- Settles O15: the SET_REGISTER task writes the draw, and counts it. -/
theorem unknownLoadDataIsADraw : Obligations.UnknownLoadDataIsADraw := by
  intro s i r rest hf hr hreset hmem hq
  have hregs : s.SameRegs (((s.atEdge i).setQueue rest).countSample i.memory) := fun q => by
    simp [State.regSeen_low hreset]
  have hdraw : s.wordSeen i = Config.draw s.draws := by simp [State.wordSeen, hmem]
  refine ⟨_, eval_setRegister hf hr hq, hdraw ▸ State.regBecomes_setReg hregs r _, ?_, ?_, rfl, s.sameFlags_atEdge i,
    s.samePorts_atEdge i, s.sameMemory_atEdge i, (s.atEdge_fault i).trans hf⟩
  · simp [State.countSample, hmem]
  · simp [hreset]

/-- Settles O10: the empty queue is the fetch issue; otherwise the head task is taken off, and its equation gives the
state field by field. -/
theorem risingEdgeIssuesOrRunsOneTask : Obligations.RisingEdgeIssuesOrRunsOneTask := by
  intro s i hf hr hreset
  refine ⟨fun hq => ?issue, fun k rest hq => ?task⟩
  case issue =>
    refine ⟨_, eval_fetchIssue hf hr hreset hq, ?_, rfl, rfl⟩
    simp [State.fetchIssue_eq, hq]
  case task =>
    have hregs : s.SameRegs ((s.atEdge i).setQueue rest) := fun r => by simp [State.regSeen_low hreset]
    have hpc : (s.atEdge i).pc = s.pc := by simp [hreset]
    have hclock : (s.atEdge i).clkPrev = true := (s.atEdge_clkPrev i).trans hr.2
    have hfault : (s.atEdge i).fault = none := (s.atEdge_fault i).trans hf
    have hseen : ∀ v, i.memory = some v → s.wordSeen i = v := fun v hv => State.wordSeen_known hv
    cases k with
    | fetch =>
      obtain ⟨t, hexec⟩ := exec_answers (decode (s.wordSeen i)) (((s.atEdge i).setQueue rest).countSample i.memory)
      obtain ⟨added, hqueue, hlength, hfetch⟩ := exec_queue hexec
      refine ⟨t, added, (eval_fetch hf hr hq).trans hexec, hqueue, hlength, hfetch, fun h => absurd rfl h,
        fun _ => ⟨_, _, hseen, hexec, rfl, hregs, hpc, s.sameFlags_atEdge i, s.samePorts_atEdge i,
          s.sameMemory_atEdge i, hclock, hfault, s.atEdge_input i⟩, fun _ _ h => (by cases h), fun _ h => (by cases h)⟩
    | write a v =>
      refine ⟨_, [], eval_task hf hr hq, (List.append_nil rest).symm, by decide, by simp, fun _ => rfl,
        fun h => (by cases h), fun a' v' h => ?_, fun _ h => (by cases h)⟩
      cases h
      exact ⟨rfl, rfl, s.atEdge_stdout i, hregs, hpc, s.sameFlags_atEdge i, hclock, hfault⟩
    | setRegister r =>
      refine ⟨_, [], eval_setRegister hf hr hq, (List.append_nil rest).symm, by decide, by simp, fun _ => rfl,
        fun h => (by cases h), fun _ _ h => (by cases h), fun r' h => ?_⟩
      cases h
      exact ⟨_, hseen, State.regBecomes_setReg hregs r _, hpc, s.sameFlags_atEdge i, s.samePorts_atEdge i,
        s.sameMemory_atEdge i, hclock, hfault⟩

/-- Settles O11: a step is an evaluation of the next inputs, whose sampled word is the line's or the next draw. -/
theorem stepRunsDecodedInstruction : Obligations.StepRunsDecodedInstruction := by
  intro s rest hf hr hq
  have hstep : step s = exec (decode (s.wordSeen s.nextInputs))
      ((s.presentNext.applyReset.latchClock.setQueue rest).countSample s.nextInputs.memory) := by
    rw [step_eq_eval, eval_fetch (s := s.dropStimulus) hf hr hq, State.atEdge_eq]
    rfl
  refine ⟨fun w hw => ⟨decode_wf w, ?known⟩, fun hnone => ?unknown⟩
  case known => rw [hstep, State.wordSeen_known hw, hw, State.countSample_some]
  case unknown => rw [hstep, State.wordSeen, hnone, Option.getD_none]

/-- Loading a word for the next step puts it at `pc` and leaves every other word. -/
theorem wordBecomes_readyToRun {s t : State} {w : Word} (h : t.mem = (s.readyToRun w).mem) :
    s.WordBecomes t s.pc w := by
  have hread : ∀ b, t.memWord b = if b = s.pc then w else s.memWord b := fun b =>
    (State.memWord_congr h b).trans (s.memWord_storeWord s.pc b w)
  exact ⟨(hread s.pc).trans (if_pos rfl), fun b hb => (hread b).trans (if_neg hb)⟩

/-- The word loaded for the next step is what the reference memory answers to the request made for it. -/
theorem readyToRun_memory (s : State) (w : Word) : (s.readyToRun w).nextInputs.memory = some w := by
  have hanswer : (s.readyToRun w).memoryAnswer = some ((s.readyToRun w).memWord s.pc) :=
    State.memoryAnswer_of_request rfl rfl
  obtain ⟨hword, _⟩ := wordBecomes_readyToRun (s := s) (w := w) rfl
  exact hanswer.trans (congrArg some hword)

/-- Settles O12: the loaded state has FETCH queued and a rising edge to come, so its step runs the word that
`readyToRun_memory` finds on the line. -/
theorem stepAfterWithFetchWordRunsIt : Obligations.StepAfterWithFetchWordRunsIt := by
  intro s n w
  have hmem := readyToRun_memory s (tableWord n w)
  have hword : (s.readyToRun (tableWord n w)).dropStimulus.wordSeen (s.readyToRun (tableWord n w)).nextInputs =
      tableWord n w := State.wordSeen_known hmem
  have hrise : (s.readyToRun (tableWord n w)).RisesOn (s.readyToRun (tableWord n w)).nextInputs := ⟨rfl, rfl⟩
  have hstep := eval_fetch (s := (s.readyToRun (tableWord n w)).dropStimulus) rfl hrise rfl
  rw [State.atEdge_low rfl, hword] at hstep
  refine ⟨_, _, rfl, hstep, State.reg_congr rfl, ⟨rfl, rfl⟩, rfl, rfl, rfl, rfl, wordBecomes_readyToRun rfl, ?_⟩
  rw [hmem]
  rfl

/-! ## Reset -/

/-- With Reset asserted an edge starts from where it would start in the cleared state with Reset low, but for the inputs
presented. -/
theorem State.atEdge_reset {s : State} {i : Inputs} (h : i.reset = true) :
    s.atEdge i = (s.clear.atEdge { i with reset := false }).surround i.clock i s.stimuli := by
  have hhigh : (s.present i).applyReset = (s.present i).clear := applyReset_high h
  rw [State.atEdge_eq, State.atEdge_eq, hhigh]
  rfl

/-- Of its surroundings an edge reads only the two data inputs: with the same data it does the same in others. -/
theorem risingEdge_surround {s t : State} (c : Bool) {j : Inputs} (l : List Stimulus)
    (hmemory : j.memory = s.input.memory) (hstdin : j.stdin = s.input.stdin) (h : s.risingEdge = .next t) :
    (s.surround c j l).risingEdge = .next (t.surround c j l) := by
  obtain ⟨hq, rfl⟩ | ⟨rest, hq, hfetch⟩ | ⟨a, v, rest, hq, rfl⟩ | ⟨r, rest, hq, rfl⟩ := risingEdge_cases h
  · exact risingEdge_nil (s := s.surround c j l) hq
  · rw [risingEdge_cons (s := s.surround c j l) hq]
    simp only [State.runTask, State.runFetch, State.setQueue_input] at hfetch ⊢
    have hline : (s.surround c j l).input.memory = s.input.memory := hmemory
    rw [hline]
    exact exec_surround (s := (s.setQueue rest).countSample s.input.memory) c l hstdin hfetch
  · exact risingEdge_cons (s := s.surround c j l) hq
  · rw [risingEdge_cons (s := s.surround c j l) hq]
    have hline : (s.surround c j l).input.memory = s.input.memory := hmemory
    simp only [State.runTask, State.runSetRegister, State.setQueue_input, hline]
    rfl

/-- An evaluation with Reset asserted ends where the one of the cleared state with Reset low ends, but for the inputs
presented (R111). -/
theorem eval_reset {s u : State} {i : Inputs} (hf : s.Healthy) (h : i.reset = true)
    (hu : eval s.clear { i with reset := false } = .next u) : eval s i = .next (u.surround i.clock i s.stimuli) := by
  by_cases hr : s.RisesOn i
  · have hrise : s.clear.RisesOn { i with reset := false } := hr
    rw [eval_rise (s := s.clear) hf hrise] at hu
    rw [eval_rise hf hr, State.atEdge_reset h]
    exact risingEdge_surround i.clock s.stimuli (by simp) (by simp) hu
  · have hno : ¬ s.clear.RisesOn { i with reset := false } := hr
    rw [eval_still (s := s.clear) hf hno] at hu
    cases hu
    exact (eval_still hf hr).trans (congrArg _ (State.atEdge_reset h))

/-- Settles O16: the clear is `State.reg_clear`, and the evaluation of the cleared state is `eval_reset`; both latch the
same Clock level. -/
theorem resetClearsThenTheEvaluationGoesOn : Obligations.ResetClearsThenTheEvaluationGoesOn := by
  intro s i hf hreset
  obtain ⟨u, hu⟩ := eval_answers s.clear { i with reset := false }
  have hclock : u.clkPrev = i.clock := eval_clkPrev (s := s.clear) (i := { i with reset := false }) hf hu
  exact ⟨s.reg_clear, rfl, ⟨rfl, rfl⟩, rfl, ⟨rfl, rfl, rfl⟩, ⟨s.memWord_clear, rfl⟩, ⟨rfl, rfl⟩,
    u.surround i.clock i s.stimuli, u, eval_reset hf hreset hu, hu,
    ⟨rfl, rfl, ⟨rfl, rfl⟩, rfl, ⟨rfl, rfl, rfl⟩, hclock.symm, rfl⟩, ⟨State.memWord_congr rfl, rfl⟩, rfl⟩

/-- Settles O17: the low evaluation leaves the cleared state with its queue as it was, and the edge then runs the task
found there. -/
theorem pendingTaskSurvivesReset : Obligations.PendingTaskSurvivesReset := by
  intro s i j hf hi hireset hj hjreset
  have hno : ¬ s.RisesOn i := fun hr => absurd (hi.symm.trans hr.2) (by decide)
  have hlow : eval s i = .next (s.atEdge i) := eval_still hf hno
  have hcleared : ∀ r, (s.atEdge i).reg r = 0 := fun r => (s.atEdge_reg i r).trans (State.regSeen_high hireset r)
  have hpc : (s.atEdge i).pc = 0 := by simp [hireset]
  have hhealthy : (s.atEdge i).Healthy := (s.atEdge_fault i).trans hf
  have hrise : (s.atEdge i).RisesOn j := ⟨(s.atEdge_clkPrev i).trans hi, hj⟩
  have hqueue : (s.atEdge i).queue = s.queue := s.atEdge_queue i
  have hflags : s.SameFlags (s.atEdge i) := s.sameFlags_atEdge i
  have hports : s.SamePorts (s.atEdge i) := s.samePorts_atEdge i
  have hmemory : s.SameMemory (s.atEdge i) := s.sameMemory_atEdge i
  generalize s.atEdge i = z at *
  refine ⟨z, hlow, hqueue, hcleared, hpc, hflags, hports, fun r v hq hmem => ?setRegister, fun a v hq => ?write,
    fun w hq hmem => ?fetch⟩
  case setRegister =>
    obtain ⟨hset, hother⟩ :=
      State.regBecomes_setReg (s := z) (t := (z.present j).latchClock.setQueue []) (State.reg_congr rfl) r v
    exact ⟨_, eval_setRegister_known hhealthy hrise hjreset hmem (hqueue.trans hq), hset,
      fun q hqr => (hother q hqr).trans (hcleared q), rfl, hpc⟩
  case write =>
    obtain ⟨hword, hlisted⟩ := hmemory
    have hstored := State.wordBecomes_runWrite (s := s) (t := (z.present j).latchClock.setQueue [])
      ⟨fun b => (State.memWord_congr rfl b).trans (hword b), hlisted⟩ a v
    exact ⟨_, eval_write hhealthy hrise hjreset (hqueue.trans hq), rfl, rfl, hstored,
      fun q => (State.reg_congr rfl q).trans (hcleared q), rfl, hpc⟩
  case fetch =>
    obtain ⟨hA, hB⟩ := hflags
    obtain ⟨haddress, hmemOut, hstdout⟩ := hports
    exact ⟨_, eval_fetch_known hhealthy hrise hjreset hmem (hqueue.trans hq),
      fun q => (State.reg_congr rfl q).trans (hcleared q), hpc, rfl, ⟨hA, hB⟩, haddress, hmemOut, hstdout⟩

/-- Settles O18: the word is executed in a state whose registers all read 0, and each instruction's own equation gives
what it makes of them. -/
theorem resetHeldAcrossEdgeExecutesOnZeros : Obligations.ResetHeldAcrossEdgeExecutesOnZeros := by
  intro s i w hf hr hreset hmem hq
  obtain ⟨t, ht⟩ := eval_answers s i
  have hexec : exec (decode w) (((s.atEdge i).setQueue []).countSample i.memory) = .next t := by
    rw [← State.wordSeen_known (s := s) hmem, ← eval_fetch hf hr hq, ht]
  have hzero : ∀ r, (((s.atEdge i).setQueue []).countSample i.memory).reg r = 0 := fun r => by
    simp [State.regSeen_high hreset]
  refine ⟨t, ht, fun r imm hw => ?store, fun a b hw => ?storer, fun a hw => ?out, fun a b hw => ?cmp,
    fun r imm hw => ?load, fun a b d hw => ?divide⟩
  case store =>
    rw [hw, exec_store_eq, hzero] at hexec
    cases hexec
    rfl
  case storer =>
    rw [hw, exec_storer_eq, hzero, hzero] at hexec
    cases hexec
    rfl
  case out =>
    rw [hw, exec_out_eq, hzero] at hexec
    cases hexec
    rfl
  case cmp =>
    rw [hw, exec_cmp_eq, hzero, hzero] at hexec
    cases hexec
    exact ⟨rfl, rfl⟩
  case load =>
    rw [hw, exec_load_eq] at hexec
    cases hexec
    exact ⟨rfl, rfl⟩
  case divide =>
    have hhealthy : (((s.atEdge i).setQueue []).countSample i.memory).Healthy := (s.atEdge_fault i).trans hf
    obtain ⟨_, hfault⟩ := exec_fault hhealthy hexec
    exact hfault.mpr ⟨a, b, d, hw, hzero b⟩

end Sys2Proof.Machine
end

section
/-! PROOF. Reset state and invariant (10_state.md R28, R34; 20_memory.md R58, R59): the invariant is about four fields,
a load makes the request that its task will sample, and the reference memory answers a request. -/

namespace Sys2Proof.Machine

/-- Settles O22: every register of the reset state is one of sixteen zeros, and the rest stands in its definition. -/
theorem resetStateIsCleanEntry : Obligations.ResetStateIsCleanEntry :=
  ⟨⟨fun i => Vector.getElem_replicate i.isLt, rfl, rfl, rfl, rfl⟩, rfl, rfl, rfl⟩

/-- With nothing queued the invariant is about the memory alone. -/
theorem State.inv_of_queue_nil {s : State} (hq : s.queue = []) (hmem : s.mem.wf = true) : s.Inv := by
  refine ⟨by simp [hq], fun k hk => ?_, hmem⟩
  simp [hq] at hk

/-- With one task queued the invariant asks for its request, if it samples. -/
theorem State.inv_of_queue_singleton {s : State} {k : Task} (hq : s.queue = [k])
    (hrequest : k.samples = true → s.Requesting) (hmem : s.mem.wf = true) : s.Inv := by
  refine ⟨by simp [hq], fun k' hk => ?_, hmem⟩
  rw [hq, List.mem_singleton] at hk
  exact hk ▸ hrequest

/-- The invariant looks at the queue, the memory-side latches and the memory only. -/
theorem State.Inv.congr {s t : State} (h : s.Inv) (hq : t.queue = s.queue) (ha : t.address = s.address)
    (hm : t.memOut = s.memOut) (hmem : t.mem = s.mem) : t.Inv := by
  obtain ⟨hlength, hrequest, hwf⟩ := h
  refine ⟨hq ▸ hlength, fun k hk hsamples => ?_, hmem ▸ hwf⟩
  rw [hq] at hk
  obtain ⟨⟨a, haddress⟩, hreleased⟩ := hrequest k hk hsamples
  exact ⟨⟨a, ha.trans haddress⟩, hm.trans hreleased⟩

/-- Under the invariant nothing stands behind the head of the queue (10_state.md R28). -/
theorem State.Inv.tail_nil {s : State} {k : Task} {rest : List Task} (h : s.Inv) (hq : s.queue = k :: rest) :
    rest = [] := by
  obtain ⟨hlength, _, _⟩ := h
  rw [hq, List.length_cons] at hlength
  exact List.eq_nil_of_length_eq_zero (by omega)

/-- An instruction executed with nothing else queued keeps the invariant: what it enqueues is one task, and a load has
made its request. -/
theorem exec_inv {i : Instr} {s t : State} (hq : s.queue = []) (hmem : s.mem.wf = true) (h : exec i s = .next t) :
    t.Inv := by
  have hkept : s.Inv := State.inv_of_queue_nil hq hmem
  rw [exec_next_iff] at h
  subst h
  have hqueue := Effect.apply_queue (effectOf s i) s
  rw [hq, List.nil_append] at hqueue
  cases heffect : effectOf s i with
  | load p d =>
    rw [heffect] at hqueue
    exact State.inv_of_queue_singleton hqueue (fun _ => ⟨⟨p, rfl⟩, rfl⟩) hmem
  | store p v =>
    rw [heffect] at hqueue
    exact State.inv_of_queue_singleton hqueue (fun hsamples => by cases hsamples) hmem
  | _ => exact hkept.congr rfl rfl rfl rfl

/-- Every evaluation keeps the invariant. -/
theorem eval_inv {s t : State} {i : Inputs} (hinv : s.Inv) (h : eval s i = .next t) : t.Inv := by
  have hstart : (s.atEdge i).Inv :=
    hinv.congr (s.atEdge_queue i) (s.atEdge_address i) (s.atEdge_memOut i) (s.atEdge_mem i)
  have ⟨_, _, hmem⟩ := hstart
  cases evaluation_of_eval h with
  | faulted _ ht => exact ht ▸ hinv.congr rfl rfl rfl rfl
  | noEdge _ _ ht => exact ht ▸ hstart
  | fetchIssue _ _ hq ht =>
    subst ht
    have hqueue : (s.atEdge i).fetchIssue.queue = [.fetch] := by simp [State.fetchIssue_eq, hq]
    exact State.inv_of_queue_singleton hqueue (fun _ => ⟨⟨_, rfl⟩, rfl⟩) hmem
  | fetch rest _ _ hq hexec => 
    exact exec_inv (s := ((s.atEdge i).setQueue rest).countSample i.memory) (hinv.tail_nil hq) hmem hexec
  | write a v rest _ _ hq ht => exact ht ▸ State.inv_of_queue_nil (hinv.tail_nil hq) (Memory.wf_write _ a v hmem)
  | setRegister r rest _ _ hq ht => exact ht ▸ State.inv_of_queue_nil (hinv.tail_nil hq) hmem

/-- Settles O23: nothing is queued at reset, and the memory lists nothing. -/
theorem invariantHoldsAtReset : Obligations.InvariantHoldsAtReset := State.inv_of_queue_nil rfl reset_mem_wf

/-- Settles O24: a step is an evaluation of the inputs presented next (`eval_inv`), and using up a stimulus touches
nothing that the invariant looks at. -/
theorem everyStepKeepsTheInvariant : Obligations.EveryStepKeepsTheInvariant := by
  intro s t hinv h
  have hdropped : s.dropStimulus.Inv := hinv.congr rfl rfl rfl rfl
  exact eval_inv hdropped h

/-- Settles O25: the invariant puts the request on the latches, and the reference memory answers it. -/
theorem sampledReadsAreAnsweredByMemory : Obligations.SampledReadsAreAnsweredByMemory := by
  intro s hinv hanswer k hk hsamples
  obtain ⟨_, hrequest, _⟩ := hinv
  obtain ⟨⟨a, haddress⟩, hreleased⟩ := hrequest k hk hsamples
  refine ⟨a, haddress, ?_⟩
  rw [State.nextInputs, hanswer]
  exact State.memoryAnswer_of_request haddress hreleased

end Sys2Proof.Machine
end

section
/-! PROOF. The instruction level (40_cycle.md R122, R123): the steps of the reference environment one by one, from the
idle core through the fetch and the execution to the task still owed, and from these the refinement. -/

namespace Sys2Proof.Machine

/-! ## Runs -/

theorem State.RunsTo.zero (s : State) : s.RunsTo 0 s := rfl

/-- A step in front of a run. -/
theorem State.RunsTo.cons {s t u : State} {k : Nat} (h : step s = .next t) (hrun : t.RunsTo k u) :
    s.RunsTo (k + 1) u := (run_succ s t k h).trans hrun

theorem State.RunsTo.one {s t : State} (h : step s = .next t) : s.RunsTo 1 t := .cons h (.zero t)

/-- A run of one more step starts with a step. -/
theorem State.RunsTo.uncons {s u : State} {k : Nat} (h : s.RunsTo (k + 1) u) :
    ∃ t, step s = .next t ∧ t.RunsTo k u := by
  obtain ⟨t, ht⟩ := eval_answers s.dropStimulus s.nextInputs
  exact ⟨t, ht, (run_succ s t k ht).symm.trans h⟩

theorem State.RunsTo.trans {s t u : State} {j k : Nat} (h : s.RunsTo j t) (hrun : t.RunsTo k u) :
    s.RunsTo (k + j) u := by
  induction j generalizing s with
  | zero => exact Host.Outcome.next.inj h ▸ hrun
  | succ j ih =>
    obtain ⟨x, hx, hrest⟩ := h.uncons
    exact .cons hx (ih hrest)

/-- A run of a given length ends in one state only. -/
theorem State.RunsTo.unique {s t u : State} {k : Nat} (ht : s.RunsTo k t) (hu : s.RunsTo k u) : t = u :=
  Host.Outcome.next.inj (ht.symm.trans hu)

/-! ## The reference environment's evaluations -/

/-- The inputs of a rising edge with Reset low and the given data. -/
def Inputs.rise (memory stdin : Option Word) : Inputs :=
  { clock := true, reset := false, memory := memory, stdin := stdin }

/-- What the reference environment presents at a rising edge. -/
theorem nextInputs_rise {s : State} {stdin : Option Word} {rest : List Stimulus}
    (h : s.stimuli = Stimulus.rise stdin :: rest) :
    s.nextInputs = .rise s.memoryAnswer stdin := by
  rw [State.nextInputs, State.nextStimulus, h]
  rfl

theorem dropStimulus_cons {s : State} {e : Stimulus} {rest : List Stimulus} (h : s.stimuli = e :: rest) :
    s.dropStimulus = { s with stimuli := rest } := by
  rw [State.dropStimulus, h, List.tail_cons]

/-- The low Clock level after an edge moves the surroundings only, and makes the next high level an edge unless the core
has faulted. -/
theorem step_fall {s : State} {stdin : Option Word} {rest : List Stimulus}
    (h : s.stimuli = Stimulus.fall stdin :: rest) :
    ∃ c j, step s = .next (s.surround c j rest) ∧ (s.Healthy → c = false) := by
  have hinputs : s.nextInputs = { clock := false, reset := false, memory := s.memoryAnswer, stdin := stdin } := by
    rw [State.nextInputs, State.nextStimulus, h]
    rfl
  rw [step_eq_eval, dropStimulus_cons h, hinputs]
  by_cases hf : s.Healthy
  · have hno : ¬ State.RisesOn { s with stimuli := rest }
        { clock := false, reset := false, memory := s.memoryAnswer, stdin := stdin } :=
      fun hr => by cases hr.2
    exact ⟨false, _, eval_no_edge_reset_low hf hno rfl, fun _ => rfl⟩
  · exact ⟨s.clkPrev, _, eval_faulted hf, fun hf' => absurd hf' hf⟩

/-- From the idle core a rising edge issues the fetch: what the instruction level calls fetched, with FETCH owed. -/
theorem step_rise_idle {s : State} {stdin : Option Word} {rest : List Stimulus} (hidle : s.Idle)
    (h : s.stimuli = Stimulus.rise stdin :: rest) :
    ∃ j, step s = .next (((s.fetched stdin).setQueue [.fetch]).surround true j rest) := by
  obtain ⟨hq, hf, hlow⟩ := hidle
  have hissue := eval_fetchIssue (s := { s with stimuli := rest })
    (i := .rise s.memoryAnswer stdin) hf ⟨hlow, rfl⟩ rfl hq
  rw [step_eq_eval, dropStimulus_cons h, nextInputs_rise h, hissue]
  refine ⟨.rise s.memoryAnswer stdin, ?_⟩
  simp only [State.fetchIssue_eq, State.latchClock_queue, State.present_queue, hq, List.nil_append]
  rfl

/-- A rising edge with a task queued performs it, the queue's tail left. -/
theorem step_rise_task {s : State} {stdin : Option Word} {rest : List Stimulus} {k : Task} {q : List Task}
    (hf : s.Healthy) (hlow : s.clkPrev = false) (hq : s.queue = k :: q) (h : s.stimuli = Stimulus.rise stdin :: rest) :
    step s = ((s.setQueue q).surround true (.rise s.memoryAnswer stdin) rest).runTask k := by
  have htask := eval_task (s := { s with stimuli := rest })
    (i := .rise s.memoryAnswer stdin) hf ⟨hlow, rfl⟩ hq
  rw [step_eq_eval, dropStimulus_cons h, nextInputs_rise h, htask, State.atEdge_low rfl]
  rfl

/-! ## One clock cycle, and one instruction -/

theorem State.setQueue_self {s : State} {q : List Task} (h : s.queue = q) : s.setQueue q = s := by
  subst h
  rfl

/-- The first clock cycle of an instruction, from the idle core: its word is fetched, and FETCH is owed. -/
theorem cycle_fetch {s : State} {stdin : Option Word} {rest : List Stimulus} (hidle : s.Idle)
    (h : s.stimuli = Stimulus.rise stdin :: Stimulus.fall stdin :: rest) :
    ∃ j, s.RunsTo 2 (((s.fetched stdin).setQueue [.fetch]).surround false j rest) := by
  obtain ⟨j, hissue⟩ := step_rise_idle hidle h
  obtain ⟨c, j', hlow, hc⟩ :=
    step_fall (s := ((s.fetched stdin).setQueue [.fetch]).surround true j (Stimulus.fall stdin :: rest)) rfl
  obtain ⟨_, hf, _⟩ := hidle
  obtain rfl := hc hf
  exact ⟨j', .cons hissue (.one hlow)⟩

/-- A clock cycle with a task queued performs it. -/
theorem cycle_task {s t : State} {stdin : Option Word} {rest : List Stimulus} {k : Task} {q : List Task}
    (hf : s.Healthy) (hlow : s.clkPrev = false) (hq : s.queue = k :: q)
    (h : s.stimuli = Stimulus.rise stdin :: Stimulus.fall stdin :: rest)
    (htask : ((s.setQueue q).surround true (.rise s.memoryAnswer stdin) (Stimulus.fall stdin :: rest)).runTask k =
      .next (t.surround true (.rise s.memoryAnswer stdin) (Stimulus.fall stdin :: rest))) :
    ∃ c j', s.RunsTo 2 (t.surround c j' rest) ∧ (t.Healthy → c = false) := by
  obtain ⟨c, j', hfall, hc⟩ :=
    step_fall (s := t.surround true (.rise s.memoryAnswer stdin) (Stimulus.fall stdin :: rest)) rfl
  exact ⟨c, j', .cons ((step_rise_task hf hlow hq h).trans htask) (.one hfall), hc⟩

/-- The first two clock cycles of an instruction, from the idle core: the fetch, and the execution in the state the
instruction level calls fetched. -/
theorem cycles_fetch_execute {s u : State} {stdin : Option Word} {rest : List Stimulus} (hidle : s.Idle)
    (hstimuli : s.stimuli = Stimulus.cycles stdin 2 ++ rest)
    (hexec : exec (decode (s.memWord s.pc)) (s.fetched stdin) = .next u) :
    ∃ c j, s.RunsTo 4 (u.surround c j rest) ∧ (u.Healthy → c = false) := by
  obtain ⟨j, hfetch⟩ := cycle_fetch hidle hstimuli
  obtain ⟨hq, hf, _⟩ := hidle
  have hanswer : (((s.fetched stdin).setQueue [.fetch]).surround false j
      (Stimulus.rise stdin :: Stimulus.fall stdin :: rest)).memoryAnswer = some (s.memWord s.pc) :=
    State.memoryAnswer_of_request rfl rfl
  have hself : (s.fetched stdin).setQueue [] = s.fetched stdin := State.setQueue_self hq
  obtain ⟨c, j', hexecute, hc⟩ := cycle_task (s := ((s.fetched stdin).setQueue [.fetch]).surround false j
      (Stimulus.rise stdin :: Stimulus.fall stdin :: rest)) (t := u) (q := []) hf rfl rfl rfl (by
    rw [hanswer]
    refine (congrArg (fun z : State => exec (decode (s.memWord s.pc)) (z.surround true _ _)) hself).trans ?_
    exact exec_surround true _ rfl hexec)
  exact ⟨c, j', hfetch.trans hexecute, hc⟩

/-- The third cycle of a load: the word requested goes into its register (40_cycle.md R118). -/
theorem cycle_load {s : State} (hq : s.queue = []) (hf : s.Healthy) (p : Addr) (d : RegIdx) (j : Inputs)
    (stdin : Option Word) (rest : List Stimulus) :
    ∃ c j', ((s.startLoad p d).surround false j (Stimulus.rise stdin :: Stimulus.fall stdin :: rest)).RunsTo 2
        (((s.requestRead p).setReg d (s.memWord p)).surround c j' rest) ∧ (s.Healthy → c = false) := by
  have hqueue : (s.startLoad p d).queue = [.setRegister d] := by rw [State.startLoad_eq, hq, List.nil_append]
  have hset : ((s.setQueue []).requestRead p).setReg d (s.memWord p) = (s.requestRead p).setReg d (s.memWord p) := by
    rw [State.setQueue_self hq]
  have hanswer : ((s.startLoad p d).surround false j
      (Stimulus.rise stdin :: Stimulus.fall stdin :: rest)).memoryAnswer = some (s.memWord p) :=
    State.memoryAnswer_of_request rfl rfl
  refine cycle_task (t := (s.requestRead p).setReg d (s.memWord p)) hf rfl hqueue rfl ?_
  rw [hanswer]
  exact congrArg (fun z : State => Host.Outcome.next (z.surround true _ _)) hset

/-- The third cycle of a store: the word owed is written (40_cycle.md R117). -/
theorem cycle_store {s : State} (hq : s.queue = []) (hf : s.Healthy) (p : Addr) (v : Word) (j : Inputs)
    (stdin : Option Word) (rest : List Stimulus) :
    ∃ c j', ((s.startStore p v).surround false j (Stimulus.rise stdin :: Stimulus.fall stdin :: rest)).RunsTo 2
        ((s.runWrite p v).surround c j' rest) ∧ (s.Healthy → c = false) := by
  have hqueue : (s.startStore p v).queue = [.write p v] := by rw [State.startStore_eq, hq, List.nil_append]
  have hwrite : (s.setQueue []).runWrite p v = s.runWrite p v := by rw [State.setQueue_self hq]
  refine cycle_task (t := s.runWrite p v) hf rfl hqueue rfl ?_
  exact congrArg (fun z : State => Host.Outcome.next (z.surround true _ _)) hwrite

/-- The three ways an instruction's whole effect follows from its execution: at once, by the register a load owes, or by
the word a store owes (R123). -/
theorem instrEffect_cases (i : Instr) (s : State) :
    (edgesOf i = 2 ∧ (effectOf s i).tasks = [] ∧ instrEffect i s = exec i s) ∨
    (edgesOf i = 3 ∧ ∃ p d, exec i s = .next (s.startLoad p d) ∧
      instrEffect i s = .next ((s.requestRead p).setReg d (s.memWord p))) ∨
    (edgesOf i = 3 ∧ ∃ p v, exec i s = .next (s.startStore p v) ∧ instrEffect i s = .next (s.runWrite p v)) := by
  cases i with
  | load r imm => exact .inr (.inl ⟨rfl, _, _, rfl, rfl⟩)
  | loadr a d => exact .inr (.inl ⟨rfl, _, _, rfl, rfl⟩)
  | store r imm => exact .inr (.inr ⟨rfl, _, _, rfl, rfl⟩)
  | storer a b => exact .inr (.inr ⟨rfl, _, _, rfl, rfl⟩)
  | div a b d =>
    refine .inl ⟨rfl, ?_, rfl⟩
    simp only [effectOf]
    split <;> rfl
  | mod a b d =>
    refine .inl ⟨rfl, ?_, rfl⟩
    simp only [effectOf]
    split <;> rfl
  | _ => exact .inl ⟨rfl, rfl, rfl⟩

/-- An instruction's clock cycles end in the state of the instruction level, in other surroundings. -/
theorem cycles_instrStep {s : State} {stdin : Option Word} {rest : List Stimulus} (hidle : s.Idle)
    (hstimuli : s.stimuli = Stimulus.cycles stdin (edgesOf (decode (s.memWord s.pc))) ++ rest) :
    ∃ u c j, instrStep stdin s = .next u ∧ u.queue = [] ∧
      s.RunsTo (2 * edgesOf (decode (s.memWord s.pc))) (u.surround c j rest) ∧ (u.Healthy → c = false) := by
  have ⟨hq, hf, _⟩ := hidle
  obtain ⟨hedges, htasks, heffect⟩ | ⟨hedges, p, d, hexec, heffect⟩ | ⟨hedges, p, v, hexec, heffect⟩ :=
    instrEffect_cases (decode (s.memWord s.pc)) (s.fetched stdin)
  all_goals rw [hedges] at hstimuli ⊢
  · have hexec := exec_eq (decode (s.memWord s.pc)) (s.fetched stdin)
    obtain ⟨c, j, hrun, hc⟩ := cycles_fetch_execute hidle hstimuli hexec
    have hqueue : ((effectOf (s.fetched stdin) (decode (s.memWord s.pc))).apply (s.fetched stdin)).queue = [] := by
      rw [Effect.apply_queue, htasks]
      exact (List.append_nil s.queue).trans hq
    exact ⟨_, c, j, heffect.trans hexec, hqueue, hrun, hc⟩
  · obtain ⟨c, j, hrun, hc⟩ :=
      cycles_fetch_execute (rest := Stimulus.rise stdin :: Stimulus.fall stdin :: rest) hidle hstimuli hexec
    obtain rfl := hc hf
    obtain ⟨c', j', htask, hc'⟩ := cycle_load (s := s.fetched stdin) hq hf p d j stdin rest
    exact ⟨_, c', j', heffect, hq, hrun.trans htask, hc'⟩
  · obtain ⟨c, j, hrun, hc⟩ :=
      cycles_fetch_execute (rest := Stimulus.rise stdin :: Stimulus.fall stdin :: rest) hidle hstimuli hexec
    obtain rfl := hc hf
    obtain ⟨c', j', htask, hc'⟩ := cycle_store (s := s.fetched stdin) hq hf p v j stdin rest
    exact ⟨_, c', j', heffect, hq, hrun.trans htask, hc'⟩

/-- Settles O45: the state that the clock cycles end in is the instruction level's in other surroundings
(`cycles_instrStep`), which none of the compared fields belongs to. -/
theorem evaluationsRefineInstructionStep : Obligations.EvaluationsRefineInstructionStep := by
  intro s stdin rest hidle hstimuli
  obtain ⟨u, c, j, hstep, hqueue, hrun, hc⟩ := cycles_instrStep hidle hstimuli
  exact ⟨_, u, hstep, hrun, fun _ => rfl, rfl, ⟨rfl, rfl⟩, ⟨rfl, rfl, rfl⟩, ⟨fun _ => rfl, rfl⟩, rfl, hqueue, rfl, rfl,
    fun hf => ⟨hqueue, hf, hc hf⟩⟩

/-! ## A store to the next address -/

theorem State.memWord_runWrite (s : State) (a : Addr) (v : Word) : (s.runWrite a v).memWord a = v :=
  (State.wordBecomes_runWrite ⟨fun _ => rfl, rfl⟩ a v).1

/-- Settles O44: the instruction-level store writes the word that the advanced `pc` names. -/
theorem storeToNextAddressIsFetched : Obligations.StoreToNextAddressIsFetched := by
  intro s stdin a b
  refine ⟨fun imm hword hnext => ⟨(s.fetched stdin).runWrite imm (s.reg b), ?_, ?_⟩,
    fun hword hnext => ⟨(s.fetched stdin).runWrite (regAddress (s.reg a)) (s.reg b), ?_, ?_⟩⟩
  · rw [instrStep, hword]
    rfl
  · rw [hnext]
    exact State.memWord_runWrite _ (satinc16 s.pc) _
  · rw [instrStep, hword]
    rfl
  · have haddress : regAddress (s.reg a) = satinc16 s.pc :=
      BitVec.eq_of_toNat_eq ((regAddress_toNat _).trans hnext)
    rw [haddress]
    exact State.memWord_runWrite _ (satinc16 s.pc) _

end Sys2Proof.Machine
end

section
/-! PROOF. The end of a run (70_reset_and_hazards.md R254): the state a self-jump leaves, that the first one is the only
end, and the two clock cycles that lead from it back to itself. -/

namespace Sys2Proof.Machine

/-! ## The state a self-jump leaves -/

/-- An address put in a register is what a jump through the register goes to. -/
theorem clamp16_setWidth (h : Addr) : clamp16 (h.setWidth 32) = h := by
  apply BitVec.eq_of_toNat_eq
  have hlt := h.isLt
  rw [clamp16_toNat, BitVec.toNat_setWidth]
  omega

theorem tagged_injective {a b : Addr} (h : tagged a = tagged b) : a = b := by
  rw [← tagged_address a, h, tagged_address]

/-- The step that executes a self-jump at `h` takes the FETCH off and sets `pc` to `h`. -/
theorem step_selfJump {s : State} {h : Addr} (hjump : s.ExecutesSelfJump h) :
    step s = .next ((((s.dropStimulus.atEdge s.nextInputs).setQueue []).countSample s.nextInputs.memory).setPc h) := by
  obtain ⟨hf, hr, hq, _, _, r, hdecode, htarget⟩ := hjump
  have hword : s.dropStimulus.wordSeen s.nextInputs = s.wordSeen s.nextInputs := rfl
  have hreg : (((s.dropStimulus.atEdge s.nextInputs).setQueue []).countSample s.nextInputs.memory).reg r =
      h.setWidth 32 := (s.dropStimulus.atEdge_reg s.nextInputs r).trans htarget
  rw [step_eq_eval, eval_fetch (s := s.dropStimulus) hf hr hq, hword, hdecode, exec_jmp_eq, hreg, clamp16_setWidth]

/-- What the spec says of the end state (R254). -/
def State.EndState (t : State) (h : Addr) : Prop :=
  t.pc = h ∧ t.queue = [] ∧ t.address = some (tagged h) ∧ t.memOut = .released ∧ t.clkPrev = true ∧ t.Healthy

theorem endState_of_selfJump {s t : State} {h : Addr} (hjump : s.ExecutesSelfJump h) (ht : step s = .next t) :
    t.EndState h := by
  rw [step_selfJump hjump] at ht
  obtain rfl := Host.Outcome.next.inj ht
  obtain ⟨hf, hr, _, haddress, hreleased, _⟩ := hjump
  exact ⟨rfl, rfl, (s.dropStimulus.atEdge_address _).trans haddress, (s.dropStimulus.atEdge_memOut _).trans hreleased,
    (s.dropStimulus.atEdge_clkPrev _).trans hr.2, (s.dropStimulus.atEdge_fault _).trans hf⟩

/-- An end of a run is a run of that many steps. -/
theorem State.RunEnded.runsTo {s t : State} {k : Nat} {h : Addr} (hend : s.RunEnded k h t) : s.RunsTo k t := by
  obtain ⟨j, u, rfl, hrun, _, hstep, _⟩ := hend
  rw [Nat.add_comm]
  exact hrun.trans (.one hstep)

/-- No end of a run comes before another: the earlier self-jump would not be one of those the later end leaves out. -/
theorem State.RunEnded.le {s t u : State} {k l : Nat} {h g : Addr} (hend : s.RunEnded k h t)
    (hend' : s.RunEnded l g u) : l ≤ k := by
  obtain ⟨j, x, rfl, hrun, hjump, _, _⟩ := hend
  obtain ⟨j', x', rfl, _, _, _, hfirst⟩ := hend'
  by_contra hlt
  exact hfirst j (by omega) x h hrun hjump

/-- Settles O49: the end state is the one a self-jump leaves (`step_selfJump`); of two ends neither comes first, a run
of a given length ends in one state, and the tagged address names `h`. -/
theorem runEndsOnceInTheSelfJumpState : Obligations.RunEndsOnceInTheSelfJumpState := by
  intro s t k h hend
  have hrun := hend.runsTo
  have hstate : ∀ {l g u}, s.RunEnded l g u → u.EndState g := by
    rintro l g u ⟨_, _, _, _, hjump, hstep, _⟩
    exact endState_of_selfJump hjump hstep
  obtain ⟨hpc, hqueue, haddress, hreleased, hclock, hf⟩ := hstate hend
  refine ⟨hrun, hpc, hqueue, haddress, hreleased, hclock, hf, fun l g u hend' => ?_⟩
  obtain rfl : l = k := Nat.le_antisymm (hend.le hend') (hend'.le hend)
  obtain rfl : u = t := hend'.runsTo.unique hrun
  obtain ⟨hpc', _⟩ := hstate hend'
  exact ⟨rfl, hpc'.symm.trans hpc, rfl⟩

/-! ## From the end back to the end -/

/-- `s` with all that moves in the repetition: `pc`, the queue, and the surroundings. -/
def State.moved (s : State) (p : Addr) (q : List Task) (c : Bool) (j : Inputs) (l : List Stimulus) : State :=
  ((s.setQueue q).setPc p).surround c j l

/-- What does not move in the repetition is as it was (R254). -/
theorem State.moved_frame (s : State) (p p' : Addr) (q q' : List Task) (c c' : Bool) (j j' : Inputs)
    (l l' : List Stimulus) : (s.moved p q c j l).SameRegs (s.moved p' q' c' j' l') ∧
      (s.moved p q c j l).SameFlags (s.moved p' q' c' j' l') ∧ (s.moved p q c j l).SamePorts (s.moved p' q' c' j' l') ∧
      (s.moved p q c j l).SameMemory (s.moved p' q' c' j' l') :=
  ⟨fun _ => rfl, ⟨rfl, rfl⟩, ⟨rfl, rfl, rfl⟩, fun _ => rfl, rfl⟩

/-- The low Clock level of the repetition. -/
theorem step_fall_moved {s : State} (hf : s.Healthy) (p : Addr) (q : List Task) (j : Inputs) (stdin : Option Word)
    (rest : List Stimulus) :
    ∃ j', step (s.moved p q true j (Stimulus.fall stdin :: rest)) = .next (s.moved p q false j' rest) := by
  obtain ⟨c, j', hfall, hc⟩ := step_fall (s := s.moved p q true j (Stimulus.fall stdin :: rest)) rfl
  obtain rfl := hc hf
  exact ⟨j', hfall⟩

/-- A request of the word that the latches request already changes nothing. -/
theorem State.requestRead_self {s : State} {a : Addr} (haddress : s.address = some (tagged a))
    (hreleased : s.memOut = .released) : s.requestRead a = s := by
  rw [State.requestRead_eq, ← haddress, ← hreleased]

/-- The fetch issue of the repetition requests the word that is requested already. -/
theorem step_refetch {s : State} {h : Addr} (hf : s.Healthy) (haddress : s.address = some (tagged h))
    (hreleased : s.memOut = .released) (j : Inputs) (stdin : Option Word) (rest : List Stimulus) :
    ∃ j', step (s.moved h [] false j (Stimulus.rise stdin :: rest)) =
      .next (s.moved (satinc16 h) [.fetch] true j' rest) := by
  obtain ⟨j', hissue⟩ := step_rise_idle (s := s.moved h [] false j (Stimulus.rise stdin :: rest)) ⟨rfl, hf, rfl⟩ rfl
  have hrequest : (s.requestRead h).moved (satinc16 h) [.fetch] true j' rest =
      s.moved (satinc16 h) [.fetch] true j' rest := by rw [State.requestRead_self haddress hreleased]
  exact ⟨j', hissue.trans (congrArg Host.Outcome.next hrequest)⟩

/-- In the reference environment a self-jump at `h` is there to be executed when the word at `h`, requested and owed, is
a `JMP` through a register that holds `h`. -/
theorem executesSelfJump_iff_of_rise {s : State} {h : Addr} {stdin : Option Word} {rest : List Stimulus}
    (hstimuli : s.stimuli = Stimulus.rise stdin :: rest) :
    s.ExecutesSelfJump h ↔ s.Healthy ∧ s.clkPrev = false ∧ s.queue = [.fetch] ∧ s.address = some (tagged h) ∧
      s.memOut = .released ∧ ∃ r, decode (s.memWord h) = .jmp r ∧ s.reg r = h.setWidth 32 := by
  unfold State.ExecutesSelfJump State.RisesOn
  rw [nextInputs_rise hstimuli]
  constructor
  · rintro ⟨hf, ⟨hlow, _⟩, hq, haddress, hreleased, r, hdecode, htarget⟩
    rw [State.memoryAnswer_of_request haddress hreleased] at hdecode
    exact ⟨hf, hlow, hq, haddress, hreleased, r, hdecode, htarget⟩
  · rintro ⟨hf, hlow, hq, haddress, hreleased, r, hdecode, htarget⟩
    rw [State.memoryAnswer_of_request haddress hreleased]
    exact ⟨hf, ⟨hlow, rfl⟩, hq, haddress, hreleased, r, hdecode, htarget⟩

/-- In the reference environment a self-jump moves `pc` and the queue only. -/
theorem step_selfJump_rise {s : State} {h : Addr} {stdin : Option Word} {rest : List Stimulus}
    (hjump : s.ExecutesSelfJump h) (hstimuli : s.stimuli = Stimulus.rise stdin :: rest) :
    ∃ j, step s = .next (s.moved h [] true j rest) := by
  have hstep := step_selfJump hjump
  obtain ⟨_, _, _, haddress, hreleased, _⟩ := hjump
  rw [nextInputs_rise hstimuli, State.memoryAnswer_of_request haddress hreleased, dropStimulus_cons hstimuli,
    State.atEdge_low rfl] at hstep
  exact ⟨_, hstep⟩

/-- Settles O50: the low level leaves an idle core at `h`, whose fetch requests the same word again; the word and the
register that made the self-jump have not moved, so it is executed again. -/
theorem endOfRunRepeatsEveryTwoEdges : Obligations.EndOfRunRepeatsEveryTwoEdges := by
  intro s h stdin rest hjump hstimuli
  obtain ⟨hf, _, _, haddress, hreleased, hjmp⟩ := (executesSelfJump_iff_of_rise hstimuli).mp hjump
  obtain ⟨j, hend⟩ := step_selfJump_rise hjump hstimuli
  obtain ⟨j₁, hlow⟩ := step_fall_moved hf h [] j stdin
    (Stimulus.rise stdin :: Stimulus.fall stdin :: Stimulus.rise stdin :: rest)
  obtain ⟨j₂, hissue⟩ :=
    step_refetch hf haddress hreleased j₁ stdin (Stimulus.fall stdin :: Stimulus.rise stdin :: rest)
  obtain ⟨j₃, hlow'⟩ := step_fall_moved hf (satinc16 h) [.fetch] j₂ stdin (Stimulus.rise stdin :: rest)
  have hagain : (s.moved (satinc16 h) [.fetch] false j₃ (Stimulus.rise stdin :: rest)).ExecutesSelfJump h :=
    (executesSelfJump_iff_of_rise rfl).mpr ⟨hf, rfl, rfl, haddress, hreleased, hjmp⟩
  obtain ⟨j₄, hback⟩ := step_selfJump_rise hagain rfl
  have hrun₁ := State.RunsTo.one hlow
  have hrun₂ := hrun₁.trans (.one hissue)
  have hrun₃ := hrun₂.trans (.one hlow')
  have hrun₄ := hrun₃.trans (.one hback)
  refine ⟨_, _, _, ⟨0, s, rfl, .zero s, hjump, hend, fun m hm => absurd hm (Nat.not_lt_zero m)⟩, hrun₃, hagain, hrun₄,
    ⟨rfl, rfl, ⟨rfl, rfl⟩, rfl, ⟨rfl, rfl, rfl⟩, rfl, rfl⟩, ⟨fun _ => rfl, rfl⟩, rfl, rfl, fun k hk x hx => ?_⟩
  obtain ⟨p, q, c, i, l, rfl⟩ : ∃ p q c i l, x = s.moved p q c i l := by
    interval_cases k
    · exact ⟨_, _, _, _, _, hx.unique (.zero _)⟩
    · exact ⟨_, _, _, _, _, hx.unique hrun₁⟩
    · exact ⟨_, _, _, _, _, hx.unique hrun₂⟩
    · exact ⟨_, _, _, _, _, hx.unique hrun₃⟩
    · exact ⟨_, _, _, _, _, hx.unique hrun₄⟩
  obtain ⟨hregs, hflags, hports, hmemory⟩ := s.moved_frame h p [] q true c j i _ l
  exact ⟨hregs, hflags, hports, hmemory, hf⟩

end Sys2Proof.Machine
end
